-- ==== Sys2Proof/Word.lean ====
section
/-!
DEFINITION. The word types of the model: an object's value is an integer held in its own type's range, a key is
an index and a subindex in one number; and the plainest arithmetic of R34.
-/

namespace Sys2Proof

/-- The value of a catalogue object or of a hidden register; OCTET[n] values are the little-endian number. -/
abbrev Val := Int

/-- An object's address: index × 256 + subindex (R10, R41). -/
abbrev Key := Nat

/-- One byte of a message or of an OCTET value. -/
abbrev Byte := BitVec 8

/-- A value held within two bounds: R34's saturation at the limit of a format. -/
def clamp (lo hi v : Int) : Int := if v < lo then lo else if hi < v then hi else v

end Sys2Proof
end

