-- ==== Sys2Proof/Syntax.lean ====
section
/-!
DEFINITION. The commands of the ODX-4192 block: one constructor of `Instr` per row of spec/opcode_table.json,
and the types of the operands that a row's rule gives it. The table itself gives no operand bits.
-/

namespace Sys2Proof

/-- Phase channel CH0–CH191 (spec/00_scope.md R8). -/
abbrev Ch := Fin 192
/-- Power module PM0–PM47. -/
abbrev Pm := Fin 48
/-- Output OUT0–OUT23. -/
abbrev Out := Fin 24
/-- Buffer-battery string BS0–BS15. -/
abbrev Bs := Fin 16
/-- Field switch FS0–FS31. -/
abbrev Fs := Fin 32
/-- Switchgear link SGL0–SGL3. -/
abbrev Lnk := Fin 4
/-- Contactor expander address 0–31 of one link. -/
abbrev Exp := Fin 32
/-- CAN FD port CAN0–CAN2. -/
abbrev Port := Fin 3
/-- Transmit buffer 0–2 of a CAN port. -/
abbrev Buf := Fin 3
/-- AC front end 0–7. -/
abbrev Fe := Fin 8
/-- Island code 0–11 in the order of 2000h.01–.0C. -/
abbrev Isl := Fin 12
/-- Entry 0–11 of the handover table 2820h.01–.0C. -/
abbrev HoSlot := Fin 12
/-- Commit group, the control object's index less 2100h: CH n = n, PM m = 192 + m, OUT k = 240 + k, then
PLACE 264, NET 265, SAFE 266 and MET 267 (spec/01_islands_and_frames.md R25). -/
abbrev Grp := Fin 268

/-- Where a catalogue write comes from; the constructors stand in the order of LAST_SOURCE, 2040h.05 (R38). -/
inductive Src where
  | can (p : Port)
  | udp (a : Fin 4)
  | partition
  | firmware
  | mirror
deriving DecidableEq, Repr

/-- A LOT transport instance (R50): a CAN port carrying LOT, a DTLS association, the partition mailbox. -/
inductive Inst where
  | can (p : Port)
  | udp (a : Fin 4)
  | mailbox
deriving DecidableEq, Repr

/-- The LOT header of R47, field by field. -/
structure LotHdr where
  service : Nat
  last : Bool
  segmented : Bool
  shadow : Bool
  tag : Nat
  index : Nat
  sub : Nat
  seg : Nat
  length : Nat
deriving DecidableEq, Repr

/-- The partition's answer to a forwarded request (R60). -/
inductive Verdict where
  | readOk (data : List Byte)
  | writeOk
  | abort (code detail : Nat)
deriving DecidableEq, Repr

/-- A site-time source; the code is that of 2010h.03. -/
inductive TimeSrc where
  | partner
  | ptp
  | fsync
deriving DecidableEq, Repr

/-- The PTP messages an ordinary clock with the delay request-response profile acts on (R22). -/
inductive PtpMsg where
  | sync (twoStep : Bool) (origin : Nat)
  | followUp (origin : Nat)
  | delayResp (received : Nat)
deriving DecidableEq, Repr

/-- The vehicle's stated limits and requests, in mA, mV and W; `none` is "not stated" (R268). -/
structure EvLimits where
  targetV : Option Int
  targetI : Option Int
  maxV : Option Int
  maxI : Option Int
  minI : Option Int
  maxP : Option Int
  maxDisI : Option Int
deriving DecidableEq, Repr

/-- The requests that R267 lists in its first row, SessionSetup to ScheduleExchange. -/
inductive SetupKind where
  | sessionSetup
  | authorization
  | serviceDiscovery
  | serviceSelection
  | chargeParameters
  | scheduleExchange
deriving DecidableEq, Repr

/-- An accepted vehicle request (R267). -/
inductive VehMsg where
  | setup (kind : SetupKind) (sessionId evccId protocol mode : Nat) (lim : EvLimits) (schedI : Int)
  | cableCheck
  | preCharge (v : Int)
  | powerStart
  | chargeLoop (lim : EvLimits)
  | powerStop
  | welding
  | sessionStop
deriving DecidableEq, Repr

/-- A CAN frame as the data link layer hands it over (R285, R286). `sof` is the site time of its start of frame. -/
structure CanFrame where
  ide : Bool
  fdf : Bool
  brs : Bool
  esi : Bool
  rtr : Bool
  dlc : Nat
  id : Nat
  data : List Byte
  sof : Nat
deriving DecidableEq, Repr

/-- The fields of a contactor expander's response (R119); `crc` is the CRC field as received. -/
structure SglResp where
  addr : Nat
  aux : Nat
  cur : Nat
  crc : Nat
deriving DecidableEq, Repr

/-- One input value that enters the CA or PL island under a stamp (R17, R35): what is applied at the stamp. -/
inductive Input where
  /-- A catalogue write that was accepted: source, object key (index × 256 + subindex) and value. -/
  | write (src : Src) (key : Nat) (val : Int)
  /-- A command of a cooling loop to a field switch (R223, R228). -/
  | fsCmd (j : Fs) (on : Bool)
  /-- A pilot classification that has not been held for its filter time: PILOT_STATE's code (R266). -/
  | pilot (k : Out) (code : Nat)
  /-- Vehicle present, with the pilot state 1 B, 2 C or 3 D (R266). -/
  | present (k : Out) (pilot : Nat)
  /-- Unplug, with the pilot state 0 A, 4 E, 5 F or 6 invalid (R266). -/
  | unplug (k : Out) (pilot : Nat)
  /-- A vehicle request (R267). -/
  | vehicle (k : Out) (m : VehMsg)
  /-- A link fault 1–5 of R273. -/
  | linkFault (k : Out) (code : Nat)
  /-- A housekeeping reading: external channel, engineering value, status (R212). -/
  | hkReading (c : Nat) (val : Int) (status : Nat)
  /-- The die sensors' highest reading T_d of a round (R213). -/
  | dieMax (t own : Int)
  /-- I_INST and V_INST of a DC meter, mA and mV (R192). -/
  | inst (k : Out) (i v : Int)
  /-- GRID_IMPORT_W of a latch boundary (R191). -/
  | gridImport (w : Int)
  /-- A valid expander response (R123). -/
  | aux (l : Lnk) (e : Exp) (r : SglResp)
  /-- An identity change of a battery string: present, code (R244). -/
  | batId (s : Bs) (present : Bool) (code : Nat)
  /-- The estimator's sums of one update (R253). -/
  | batCaps (dis chg : Int)
  /-- A frame a CAN filter accepted (R285). -/
  | canFrame (p : Port) (f : CanFrame)
  /-- The outcome of a CAN transmission: 4 sent, 5 sent late, 6 aborted (R288). -/
  | canOutcome (p : Port) (b : Buf) (state : Nat) (time : Nat)
  /-- A valid front-end report: ALIVE, state, fault code, mV, mA, W (R289). -/
  | feReport (r : Fe) (state fault : Nat) (vdc idc pac : Int)
  /-- A valid mains-pulse REPLY (R305). -/
  | mplReply (addr type blocks phase erased : Nat) (data : List Byte) (corrected : Bool)
  /-- A failed attempt at a station, or a lost frame (R299, R300, R304): 1 SYNC, 2 BCNT, 3 CRC, 4 no reply, 5 a beacon slot
  without a reply. -/
  | mplLost (addr cause : Nat)
  /-- An item that the active unit of a pair has produced for queue q (R372). -/
  | item (q : Nat) (words : List Nat)
deriving DecidableEq, Repr

/-- A handover in flight (R96): its entry of 2820h, the incoming and the outgoing module (255 none), the output, the
step, when the step began, whether its condition is met (the next step begins at the PFB), whether the outgoing
gates went off for want of a drain, and how many modules its result planned to join the output (R101). -/
structure Handover where
  slot : Nat
  inc : Nat
  out : Nat
  k : Nat
  step : Nat
  startNs : Int
  met : Bool
  fallback : Bool
  planned : Nat
  frame : Nat
deriving DecidableEq, Repr

/-- A move of a Shelver result (R88): modules that join and leave output k (255 none), the output by which it is
sorted and counted (R90), and the second output that a module won across outputs involves (255 none). -/
structure Move where
  inc : Nat
  out : Nat
  k : Nat
  recv : Nat
  cross : Nat
deriving DecidableEq, Repr

/-- What the Shelver publishes (R85–R90): the frame it computed in, whether placement was frozen (R95), the budget
parts G and B, the targets T_k, I_dem_k and V_k of its snapshot, the holder of every module (255 none), its moves in
the order of R90, and the module prices at the end (R87). -/
structure ShResult where
  frame : Nat
  frozen : Bool
  g : Int
  b : Int
  target : List Int
  iDem : List Int
  planV : List Int
  hold : List Nat
  moves : List Move
  prices : List Int
deriving DecidableEq, Repr

/-- A segment of the state that a JOIN message carries (R312, R372): register values (copy 0 objects, 1 active, 2 shadow;
key; value), the handovers in flight, the Shelver's result, a queue. -/
inductive JoinSeg where
  | values (l : List (Fin 3 × Nat × Int))
  | handovers (l : List Handover)
  | shelver (r : Option ShResult)
  | queue (q : Fin 64) (words : List Nat) (overrun uncorr : Bool) (gapCount gapFrame : Nat)
deriving DecidableEq, Repr

/-- Both lanes' copies of a pair-link message: 0 absent, 1 passes its check, 2 fails it (R315). -/
structure Lanes where
  a : Fin 3
  b : Fin 3
deriving DecidableEq, Repr

/-- The SAMPLE message (R315, R345). -/
structure SampleMsg where
  frame : Nat
  sample : Nat
  hashes : List Nat
  selFb : Bool
  sfState : Nat
  scoCut : Nat
  outLocks : Nat
deriving DecidableEq, Repr

/-- What two units exchange at step 6 (R311), with the partner's lines. -/
structure PartnerId where
  partCode : Nat
  siliconRev : Nat
  imageVer : Nat
  profile : Nat
  lcState : Nat
  unitId : Nat
  role : Nat
  starting : Bool
  claimHigh : Bool
  serial : Nat
  frame : Nat
deriving DecidableEq, Repr

/-- An object that the partition registers (R60): its length in bytes, and its access class as whether it can be read
and written. -/
structure PartObj where
  index : Nat
  sub : Nat
  len : Nat
  readable : Bool
  writable : Bool
  persisted : Bool
deriving DecidableEq, Repr

/-- What the outside contributes to one run of start-up steps 1 to 8 (R73): the stocktake signatures that differ from
ST_SIG_EXPECT, the partner's answer, the first valid expander responses of step 8 (link, expander, AUX), the site time
where a source is locked, the levels of SEL_FB and of the partner's CLAIM, the levels of SAFE_IN and the insulation
monitors that report a fault (R75), how long the stocktake of each island and steps 1 to 7 took, in µs, and the AO ticks
for which the controller had been without supply, and the objects that the partition registers once it runs (R60). -/
structure StartEnv where
  badSigs : List (Isl × Nat)
  partner : Option PartnerId
  partnerClaim : Bool
  selFb : Bool
  expanders : List (Lnk × Exp × Nat)
  siteTime : Option Nat
  safeIn : Nat
  imdFault : Nat
  runUs : List Nat
  stepUs : List Nat
  aoTicks : Nat
  partReg : List PartObj
deriving DecidableEq, Repr

/-- What R79 found closed at start-up: a module's selector or an output's contactors. -/
inductive Found where
  | module (m : Pm)
  | output (k : Out)
deriving DecidableEq, Repr

/-- Functions of R333 whose demand does not come from another row of the table. -/
inductive SfFn where
  | input (i : Fin 16)
  | insulation (k : Out)
  | hotspot (k : Out)
  | dieOverTemp
deriving DecidableEq, Repr

/-- The reading of a BAT_ID ball (R244). -/
structure BatRead where
  milliVolt : Nat
deriving DecidableEq, Repr

/-- What a TLS 1.3 client offers on a vehicle link (R261). -/
structure TlsOffer where
  tls13 : Bool
  aes256gcm : Bool
  secp521r1 : Bool
deriving DecidableEq, Repr

/-- What a DTLS client offers and where its certificate chains to (R54, R55). -/
structure DtlsOffer where
  dtls13 : Bool
  suiteOk : Bool
  groupOk : Bool
  certEcdsa : Bool
  chainsRead : Bool
  chainsWrite : Bool
deriving DecidableEq, Repr

/-- One DC meter's MT sample: calibrated input voltages in nV (R180). -/
structure DcSample where
  k : Out
  uI : Int
  uV : Int
deriving DecidableEq, Repr

/-- One grid point's MT sample: three phase-voltage inputs and four current inputs in nV (R181). -/
structure GridSample where
  g : Fin 2
  uV : List Int
  uI : List Int
deriving DecidableEq, Repr

/-- How a CAN transmission ended on the bus (R283). -/
inductive TxEnd where
  | ok
  | arbLost
  | error
deriving DecidableEq, Repr

/-- A CAN error as ISO 11898-1 distinguishes it: kind (LAST_ERROR, 4404h + p.0B), whether the port was
transmitting, and the counter step the standard gives (1 or 8). -/
structure CanErr where
  kind : Fin 7
  transmitting : Bool
  major : Bool
deriving DecidableEq, Repr

/-- What wakes a sleeping port (R287). -/
inductive WakeEv where
  | dominant (us : Nat)
  | frame (f : CanFrame)
deriving DecidableEq, Repr

/-- One modem transfer on a CCS modem port (R264). -/
inductive MdmReq where
  | write (frame : List Byte)
  | read
  | status
deriving DecidableEq, Repr

/-- A half cycle as the receiver decided it (R294): `none` is erased. -/
abbrev HalfCycle := Option Bool

/-- A mains-pulse frame as received on one phase: the half cycles of SYNC, BCNT and the blocks (R295). -/
structure MplRx where
  phase : Fin 3
  bits : List HalfCycle
deriving DecidableEq, Repr

/-- THE COMMANDS. One constructor per row of spec/opcode_table.json. -/
inductive Instr where
  -- frames, time and commits (spec/01_islands_and_frames.md)
  | controlSample (sd : List (Nat × Nat)) (selFb partnerClaim : Bool)
  | crossingArrival (toPl : Bool) (frame sample : Nat) (inp : Input)
  | powerFrameBoundary
  | commitCutoff
  | commit (src : Src) (g : Grp)
  | frameStep (arrivals : List (Src × Input))
  | ptpMessage (port domain : Nat) (m : PtpMsg)
  | fsyncEdge
  | timeSourceLost (t : TimeSrc)
  -- Shelver (spec/04_shelver_placement.md)
  | shelverFrame
  | handoverPreregDone (h : HoSlot)
  | preregTimeout (h : HoSlot)
  | handoverSelectorClosed (h : HoSlot)
  | selCloseTimeout (h : HoSlot)
  | handoverRampEnd (h : HoSlot)
  | handoverDrainDone (h : HoSlot)
  | drainStuck (h : HoSlot)
  | handoverSelectorOpened (h : HoSlot)
  | selOpenTimeout (h : HoSlot)
  | dwellExpiry (m : Pm)
  | quarantineRelease (m : Pm)
  | quarClear (src : Src) (m : Pm)
  -- catalogue transports (spec/02_object_catalogue.md)
  | lotReadReq (t : Inst) (h : LotHdr)
  | lotWriteReq (t : Inst) (h : LotHdr) (data : List Byte)
  | lotSegData (t : Inst) (h : LotHdr) (data : List Byte)
  | lotSegAck (t : Inst) (h : LotHdr)
  | lotAbort (t : Inst) (h : LotHdr)
  | lotUnknownService (t : Inst) (h : LotHdr)
  | lotSegmentTimeout (t : Inst) (tag : Nat)
  | lotLifetimeTimeout (t : Inst) (tag : Nat)
  | partitionVerdict (t : Inst) (tag : Nat) (v : Verdict)
  | partitionTimeout (t : Inst) (tag : Nat)
  | objectWrite (src : Src) (index sub : Nat) (data : List Byte)
  | dtlsHandshake (o : DtlsOffer)
  | storeConfig (src : Src) (val : Nat)
  | restoreDefaults (src : Src) (val : Nat)
  -- supplies, domains, start-up, resets (spec/03_supplies_startup_reset.md)
  | powerOnReset (cause : Fin 5)
  | startUp (env : StartEnv)
  | reconcileOpen (f : Found)
  | reconcileStuck (f : Found)
  | metrologyDieReset
  | aoPowerLoss
  | domainOff (src : Src) (mask : Nat)
  | domainOn (src : Src) (mask : Nat)
  | domainStarted (d : Fin 13) (pass : Bool)
  | resetReqAp (src : Src)
  | resetReqCa (src : Src)
  | resetReqFull (src : Src)
  | apReset (requested : Bool)
  | caReset (requested : Bool)
  -- output sessions and switchgear (spec/05_output_sessions_switchgear.md, spec/12_vehicle_links.md)
  | vehiclePresent (k : Out) (highMv lowMv : Int) (heldUs : Nat)
  | unplug (k : Out) (highMv lowMv : Int) (heldUs : Nat)
  | contactorCloseTimeout (k : Out)
  | isoDwellExpiry (k : Out)
  | isoTimeout (k : Out)
  | prechargeReady (k : Out)
  | prechargeTimeout (k : Out)
  | pauseTimeout (k : Out)
  | outStop (src : Src) (k : Out)
  | rampDownEnd (k : Out)
  | rampStuck (k : Out)
  | weldPhasePass (k : Out)
  | weldPhaseTimeout (k : Out)
  | faultContactorOpen (k : Out)
  | faultClear (src : Src) (k : Out)
  | sglCycle
  | sglResponse (l : Lnk) (e : Exp) (r : SglResp)
  | sglResponseInvalid (l : Lnk) (e : Exp) (missing : Bool)
  | expanderLost (l : Lnk) (e : Exp)
  | expanderReturned (l : Lnk) (e : Exp)
  | linkDown (l : Lnk)
  -- converter loops and protection (spec/06_converter_loops.md, spec/07_phase_scheduling_protection.md)
  | ocEvent (n : Ch) (window : Nat)
  | hiccupEntry (n : Ch)
  | hiccupRetry (n : Ch)
  | cleanRunReset (n : Ch)
  | thermalRelease (m : Pm)
  | linkOvTrip (m : Pm)
  | linkOvRelease (m : Pm)
  | latchClear (src : Src) (m : Pm)
  | burstWindow (k : Out)
  | engineSelfTest (e : Isl) (pass : Bool)
  | degradeClear (bit : Fin 8)
  -- metrology (spec/08_metrology.md)
  | mtSample (dc : List DcSample) (grid : List GridSample)
  | mainsCrossing
  | zcTimeout
  | internalTick
  | latchBoundary (ref0 ref1 ref2 : Int)
  | instReading
  | driftClear (src : Src) (val : Nat)
  | pulseStart (j : Fin 8)
  | pulseEnd (j : Fin 8)
  | earlyWarning (pfwIn vmetLow : Bool)
  | warningEnd
  | periodicTotalsSave
  | vmetCut
  | mtRecovery
  | ledgerEntrySigned
  | snapshotReq (src : Src) (meter : Nat)
  | ledgerAck (src : Src) (seq : Nat)
  | ledgerRead (src : Src) (seq : Nat)
  -- housekeeping, throttles (spec/09_thermal_cable.md)
  | hkRoundStart
  | hkRoundEnd (ch : List (Nat × Int)) (die : List Int) (supply : List Int)
  | throttleStep
  -- field switches (spec/10_field_switches.md)
  | fsCmd (src : Src) (j : Fs) (on : Bool)
  | fsDinEdge (j : Fs) (high : Bool)
  | fsOverload (j : Fs)
  | fsOvertemp (j : Fs)
  | fsRestart (j : Fs)
  | fsRestartCountReset (j : Fs)
  | fsOpenOn (j : Fs) (below : Bool)
  | fsOffDiagTest (j : Fs) (mv1 mv2 : Int)
  | fsClear (src : Src) (j : Fs)
  | fieldDieRestart
  | vfldOvervoltage
  | fgndLoss
  | vfldReversed
  -- battery (spec/11_buffer_battery.md)
  | batIdChange (s : Bs) (r : BatRead)
  | batteryUpdate (overran : Bool)
  | settlingEnd (s : Bs)
  | restCorrection (s : Bs)
  | fullAnchor (s : Bs)
  | emptyAnchor (s : Bs)
  | lowConfidenceSet (s : Bs)
  | batteryFolioSave (s : Bs)
  -- vehicle links (spec/12_vehicle_links.md)
  | seccDiscovery (k : Out) (tlsWanted : Bool)
  | tcpConnect (k : Out)
  | tlsHandshake (k : Out) (o : TlsOffer)
  | sessionSetup (k : Out) (kind : SetupKind) (sessionId evccId protocol mode : Nat) (lim : EvLimits) (schedI : Int)
  | dcCableCheck (k : Out)
  | dcPreCharge (k : Out) (v : Int)
  | powerDeliveryStart (k : Out)
  | dcChargeLoop (k : Out) (lim : EvLimits)
  | powerDeliveryStop (k : Out)
  | dcWeldingDetection (k : Out)
  | sessionStop (k : Out)
  | messageTimeout (k : Out)
  | sequenceTimeout (k : Out)
  | linkClosed (k : Out)
  | renegotiationDue (k : Out)
  | modemTransfer (p : Fe) (sel : Fin 2) (req : MdmReq) (resp : List Byte)
  | slacMatch (k : Out) (atten : Nat)
  | slacTimeout (k : Out)
  -- CAN FD (spec/13_can_fd.md)
  | canFrameReceived (p : Port) (f : CanFrame)
  | txbRequest (src : Src) (p : Port) (b : Buf)
  | txbAbort (src : Src) (p : Port) (b : Buf)
  | canBusIdle (p : Port)
  | canTxComplete (p : Port) (e : TxEnd)
  | canError (p : Port) (e : CanErr)
  | busoffRecovered (p : Port)
  | busoffRecover (src : Src) (p : Port)
  | timedTxDue (p : Port) (b : Buf)
  | sleepReq (src : Src) (p : Port)
  | canSleepEntry (p : Port)
  | wakeReq (src : Src) (p : Port)
  | canWake (p : Port) (e : WakeEv)
  | canRejoin (p : Port)
  | feCommand
  | feLost (r : Fe)
  | feWriteReset (src : Src) (r : Fe)
  -- mains-pulse link (spec/14_mains_pulse_link.md)
  | mplCrossing (ph : Fin 3)
  | mplFrameReceived (rx : List MplRx)
  | mplPoll
  | mplNoReply
  | bcastReq (src : Src)
  | mplBeacon
  | mplSlotEnd
  | mplNoMains
  | mplMainsReturn
  -- pair (spec/15_pair_operation.md)
  | pairSample (m : SampleMsg) (l : Lanes)
  | pairMirror (frame sample seq : Nat) (src : Src) (inp : Input) (l : Lanes)
  | pairChecksum (frame sum : Nat) (l : Lanes)
  | pairMismatch (frame sample mask : Nat) (l : Lanes)
  | pairVerdict (fault : Bool) (l : Lanes)
  | fastDiagDone (pass : Bool) (engine : Option Isl)
  | pairYield (l : Lanes)
  | pairSwapMsg (frame : Nat) (l : Lanes)
  | pairJoinSegment (seg : JoinSeg) (l : Lanes)
  | joinComplete
  | pairSecret (k : Out) (secret : Nat) (l : Lanes)
  | pairForward (index sub : Nat) (src : Src) (val : Int) (l : Lanes)
  | heartbeatLost
  | takeoverDriveStart
  | selFbUnexpected
  | selFbLost
  | pairNegotiationTimeout
  | partnerAppears (id : PartnerId)
  | swapReq (src : Src)
  | swapDailyDue
  | swapExecute
  | swapLapsed
  | swapClaimFailed
  | rejoin (src : Src)
  | alarmClear (src : Src)
  -- safety island (spec/16_safety_island.md)
  | sfCycle (safeIn scoRead : Nat)
  | safetyDemand (f : SfFn)
  | testPulse (t : Fin 4) (high : Nat)
  | discrepancyFault (i : Fin 16)
  | imdClassify (k : Out) (periodUs highUs : Nat)
  | imdNoEdge (k : Out)
  | ovDemand (k : Out)
  | forcedContactorOpen (k : Out)
  | sfDiagFault (code : Nat)
  | oscCrossCheckFail
  | safeReset (lowUs highUs : Nat)
  | safeResetTooLong
  | sfDisagree
  -- key vault, measured boot, life cycle (spec/17_vault_and_measured_boot.md)
  | generate (src : Src)
  | importKey (src : Src)
  | verifyStage (src : Src)
  | stageCert (src : Src)
  | swapKey (src : Src)
  | discardStage (src : Src)
  | deleteSlot (src : Src)
  | extendMeas7 (src : Src)
  | generateBlob (src : Src)
  | importBlob (src : Src)
  | vaultCommandDone
  | meas7Extend (src : Src) (val : List Byte)
  | ownerAnchor (src : Src) (val : List Byte)
  | beginUpd (src : Src)
  | updData (src : Src) (data : List Byte)
  | verifyUpd (src : Src)
  | forwardWrap (src : Src)
  | activate (src : Src)
  | confirm (src : Src)
  | cancel (src : Src)
  | lcTarget (src : Src) (val : Nat)
  | lcToken (src : Src) (val : List Byte)
  | tamperBreach
  -- folios and queues (spec/18_folios_and_queues.md)
  | folioWrite (region : Fin 7) (folio : Nat)
  | folioWriteComplete (region : Fin 7) (folio : Nat) (pass : Bool)
  | qConsume (src : Src) (q : Fin 64) (n : Nat)
  | qReset (src : Src) (q : Fin 64) (val : Nat)
  | qFlagClear (src : Src) (q : Fin 64)
  | queueScrub (errs : List (Nat × Nat × Bool))
  | telemetryRecord
  -- stocktake and injection (spec/19_stocktake_and_injection.md)
  | stReq (src : Src) (mask : Nat)
  | stocktakeRunEnd (i : Isl) (sig : Nat)
  | segmentStart
  | segmentEnd (pass : Bool)
  | injStart (src : Src) (d : Fin 179)
  | injStop (src : Src) (d : Fin 179)
  | injPermitS (src : Src) (val : Nat)
  | injToken (src : Src) (val : List Byte)
  -- the last five have no operands
  | segmentAbandon
  | injectionHoldEnd
  | permitExpiry
  | vfldLoss
  | vfldOvervoltageEnd
deriving DecidableEq, Repr

end Sys2Proof
end

