-- ==== Sys2Proof/Decode.lean ====
section
/-!
DEFINITION. The decoder over the table's bits. spec/opcode_table.json gives no row any bits: a command is an event, an
access or a message with operands, not a word. The decoder therefore knows no word and answers none.
-/

namespace Sys2Proof

/-- The command that a word spells by the table's bits: none, since no row has any. -/
def decodeTableWord (nbits w : Nat) : Option Instr :=
  match nbits, w with
  | _, _ => none

end Sys2Proof
end

