-- ==== Sys2Proof/Config.lean ====
section
/-!
DEFINITION. What one unit of the part fixes and the spec does not: free values. None has a body, so no proof can
use what they are; a statement about a free value holds whatever it is.
-/

namespace Sys2Proof.Config

/-- A free value of `w` bits, drawn for the `n`-th time (the counter is `Data.drawn` of the state). It stands for
every value that the spec says the unit produces and does not state: a random number, a generated key, a nonce, a
signature (spec/17, R204, R205, R354, R359, R390). Assumption log 2. -/
opaque freeBits : (w : Nat) → Nat → BitVec w

/-- The unit's V_DIAG above its minimum of 2.6 V, in mV (R240); assumption log 2. -/
opaque vDiagOver : Fin 801

/-- The unit's junction threshold T_SD − T_HYST above its minimum of 130 °C, in 0.01 °C (R240); assumption log 2. -/
opaque tCoolOver : Fin 4001

/-- The unit's folio write thresholds above their minima of 0.705 V (VCORE) and 1.66 V (VIO0), in mV (R367);
assumption log 2. -/
opaque vcoreFolioOver : Fin 11
opaque vio0FolioOver : Fin 21

/-- CONFIG_DIGEST of a persisted set, as pairs of key and value in ascending order: the spec names the hash and not
the image that is hashed (1030h.05); assumption log 2. -/
opaque configDigest : List (Nat × Int) → BitVec 384

/-- Digests of the components of the image the unit was shipped with (R348, R349); assumption log 2. -/
opaque factoryDigest : Nat → BitVec 384

/-- Public parts of blobs 0, 4 and 5 as Thokofa made them (R357): the firmware-verification key, the device import key
and the life-cycle anchor; assumption log 2. -/
opaque factoryBlob : Nat → BitVec 776

/-- The new firmware-verification key that component 0 of an image carries, if it carries one (R357): the spec states no
layout of it; assumption log 2. -/
opaque imageKey : (component : List Nat) → Option (BitVec 776)

/-- What IMPORT data opens to on this unit, if its tag checks (R355): a function of the unit's own import key, of SERIAL,
CLASS, INDEX, ATTR, KEY_TYPE and DATA; assumption log 2. -/
opaque importOpens : (serial cls index attr keyType : Nat) → (data : List Nat) → Option Nat

/-- The public key of an Ed448 private key (R353); assumption log 2. -/
opaque ed448Pub : Nat → BitVec 456

/-- Whether a symmetric stage passes VERIFY_STAGE (R354), from its key and DATA[0–31]: the spec names no mode of
operation; assumption log 2. -/
opaque stageCheck : Nat → List Nat → Bool

/-- The bytes of a Shelver result and of the module prices in STATE_SUM (R317): the spec states no layout of them;
assumption log 2. -/
opaque shelverBytes : List Int → List Nat

end Sys2Proof.Config
end

