-- ==== Sys2Proof/Machine/Catalogue.lean ====
section
/-!
DEFINITION. The object catalogue (R13, R41, R46): for every object its type, access class, default, the range its
table states and its commit group, and for every register that a rule names without an index a key above 10000h.
The rows stand in the order of their indices, as the object tables of spec/ give them.
-/

namespace Sys2Proof.Machine

/-- The types of R11. ENUM8 is `u8`, Q4.28 is `i32` (a Q4.28 value is held as its 32-bit code), TIME64 is `u64`;
`hid` is a register without a catalogue index. -/
inductive Ty where
  | bool | u8 | u16 | u32 | u64 | i16 | i32 | i64
  | octet (n : Nat)
  | hid
deriving DecidableEq, Repr

/-- The access classes of R13; the mask of `rwl` has bit c set where life-cycle state c may write. -/
inductive Acc where
  | ro | rw | rws | wo | const
  | rwl (lc : Nat)
deriving DecidableEq, Repr

/-- The column "commit group" of an object table (R25). -/
inductive GrpKind where
  | none | ch | pm | out | place | net | safe | met
deriving DecidableEq, Repr

/-- One row of an object table: first subindex, how many subindices, type, access, default, what the default grows
by from item to item, the stated range, and the group. -/
structure Row where
  sub : Nat
  cnt : Nat
  ty : Ty
  acc : Acc
  dflt : Int
  step : Int
  lo : Int
  hi : Int
  grp : GrpKind
deriving DecidableEq, Repr

/-- The indices base to base + count − 1, which all have the same subindices. -/
structure Block where
  base : Nat
  count : Nat
  rows : List Row
deriving DecidableEq, Repr


namespace R

/-- 1000h.01 VENDOR_ID (CONST, 02/R46). -/
def vendorId : Key := 0x100001
/-- 1000h.02 PART_NUMBER (CONST, 02/R46). -/
def partNumber : Key := 0x100002
/-- 1000h.03 PART_CODE (CONST, 02/R46). -/
def partCode : Key := 0x100003
/-- 1000h.04 SILICON_REV (CONST, 02/R46). -/
def siliconRev : Key := 0x100004
/-- 1000h.05 RESIDENT_FW (RO, 02/R46). -/
def residentFw : Key := 0x100005
/-- 1000h.06 METROLOGY_FW (RO, 02/R46). -/
def metrologyFw : Key := 0x100006
/-- 1000h.07 SERIAL (CONST, 02/R46). -/
def serial : Key := 0x100007
/-- 1000h.08 CATALOGUE_VER (RO, 02/R46). -/
def catalogueVer : Key := 0x100008
/-- 1000h.09 CHANNELS_PRESENT (CONST, 02/R46). -/
def channelsPresent : Key := 0x100009
/-- 1000h.0A MODULES_PRESENT (CONST, 02/R46). -/
def modulesPresent : Key := 0x10000A
/-- 1000h.0B OUTPUTS_PRESENT (CONST, 02/R46). -/
def outputsPresent : Key := 0x10000B
/-- 1010h.01 LC_STATE (RO, 02/R46). -/
def lcState : Key := 0x101001
/-- 1010h.02 PROFILE (RWS, 02/R46). -/
def profile : Key := 0x101002
/-- 1020h.01 CAN_LOT_PORT (RWS, 02/R53). -/
def canLotPort : Key := 0x102001
/-- 1020h.02 NODE_ID (RWS, 02/R53). -/
def nodeId : Key := 0x102002
/-- 1020h.03 REQ_ID_BASE (RWS, 02/R53). -/
def reqIdBase : Key := 0x102003
/-- 1020h.05 CAN_LOT_WRITE (RW, 02/R53). -/
def canLotWrite : Key := 0x102005
/-- 1021h.01 UDP_PORT (RWS, 02/R55). -/
def udpPort : Key := 0x102101
/-- 1021h.02 UDP_ETH_MASK (RWS, 02/R55). -/
def udpEthMask : Key := 0x102102
/-- 1021h.03 READ_ANCHOR_SLOT (RWS, 02/R55). -/
def readAnchorSlot : Key := 0x102103
/-- 1021h.04 WRITE_ANCHOR_SLOT (RWS, 02/R55). -/
def writeAnchorSlot : Key := 0x102104
/-- 1021h.05 ASSOCIATIONS (RO, 02/R55). -/
def associations : Key := 0x102105
/-- 1030h.01 STORE (WO, 02/R58). -/
def storeReq : Key := 0x103001
/-- 1030h.02 RESTORE_DEFAULTS (WO, 02/R58). -/
def restoreDefaults : Key := 0x103002
/-- 1030h.03 STORE_STATE (RO, 02/R58). -/
def storeState : Key := 0x103003
/-- 1030h.04 STORE_FRAME (RO, 02/R58). -/
def storeFrame : Key := 0x103004
/-- 1030h.05 CONFIG_DIGEST (RO, 02/R58). -/
def configDigest : Key := 0x103005
/-- 1030h.06 LOAD_REJECTS (RO, 02/R58). -/
def loadRejects : Key := 0x103006
/-- 1030h.07 LOAD_FIRST_REJECT (RO, 02/R58). -/
def loadFirstReject : Key := 0x103007
/-- 1040h.01 MIRROR_SAT_COUNT (RO, 02/R62). -/
def mirrorSatCount : Key := 0x104001
/-- 1040h.02 MIRROR_LAST_SAT (RO, 02/R62). -/
def mirrorLastSat : Key := 0x104002
/-- 2000h.01–.0C ISLAND_STATE_AP (RO, 01/R24). -/
def islandState (j : Nat) : Key := 0x200001 + j
/-- 2010h.01 FRAME_NO (RO, 01/R24). -/
def frameNo : Key := 0x201001
/-- 2010h.02 PFB_TIME (RO, 01/R24). -/
def pfbTime : Key := 0x201002
/-- 2010h.03 TIME_SOURCE (RO, 01/R24). -/
def timeSource : Key := 0x201003
/-- 2010h.04 TIME_SOURCE_ORDER (RWS, 01/R24). -/
def timeSourceOrder : Key := 0x201004
/-- 2010h.05 FRAME_PHASE (RWS, 01/R24). -/
def framePhase : Key := 0x201005
/-- 2010h.06 SYNC_STATE (RO, 01/R24). -/
def syncState : Key := 0x201006
/-- 2010h.07 PHASE_ERROR (RO, 01/R24). -/
def phaseError : Key := 0x201007
/-- 2010h.08 FSYNC_MISSED (RO, 01/R24). -/
def fsyncMissed : Key := 0x201008
/-- 2010h.09 PTP_DOMAIN (RWS, 01/R24). -/
def ptpDomain : Key := 0x201009
/-- 2010h.0A PTP_PORT (RWS, 01/R24). -/
def ptpPort : Key := 0x20100A
/-- 2020h.01 CROSS_OVERRUN (RO, 01/R24). -/
def crossOverrun : Key := 0x202001
/-- 2030h.01 DEGRADE_FLAGS (RO, 01/R39). -/
def degradeFlags : Key := 0x203001
/-- 2030h.02 ENGINE_FAIL_MASK (RO, 01/R39). -/
def engineFailMask : Key := 0x203002
/-- 2030h.03 PL_ROUNDS (RO, 01/R39). -/
def plRounds : Key := 0x203003
/-- 2030h.04 HK_ROUND_US (RO, 01/R39). -/
def hkRoundUs : Key := 0x203004
/-- 2040h.01 COUNT (RO, 01/R38). -/
def refusalCount : Key := 0x204001
/-- 2040h.02 LAST_ENTRY (RO, 01/R38). -/
def refusalEntry : Key := 0x204002
/-- 2040h.03 LAST_FRAME (RO, 01/R38). -/
def refusalFrame : Key := 0x204003
/-- 2040h.04 LAST_INDEX (RO, 01/R38). -/
def refusalIndex : Key := 0x204004
/-- 2040h.05 LAST_SOURCE (RO, 01/R38). -/
def refusalSource : Key := 0x204005
/-- 2050h.01 DOMAIN_STATE (RO, 03/R72). -/
def domainState : Key := 0x205001
/-- 2050h.02 DOMAIN_OFF (WO, 03/R72). -/
def domainOff : Key := 0x205002
/-- 2050h.03 DOMAIN_ON (WO, 03/R72). -/
def domainOn : Key := 0x205003
/-- 2050h.04 PL_POWER_CAP (RWS, 03/R72). -/
def plPowerCap : Key := 0x205004
/-- 2050h.05 DOMAIN_REFUSED (RO, 03/R72). -/
def domainRefused : Key := 0x205005
/-- 2050h.06 DOMAIN_REFUSE_CAUSE (RO, 03/R72). -/
def domainRefuseCause : Key := 0x205006
/-- 2060h.01 START_PHASE (RO, 03/R79). -/
def startPhase : Key := 0x206001
/-- 2060h.02 RESET_CAUSE (RO, 03/R79). -/
def resetCause : Key := 0x206002
/-- 2060h.03 FULL_RESET_COUNT (RO, 03/R79). -/
def fullResetCount : Key := 0x206003
/-- 2060h.04 BOOT_IMAGE (RO, 03/R79). -/
def bootImage : Key := 0x206004
/-- 2060h.05 START_FAIL (RO, 03/R79). -/
def startFail : Key := 0x206005
/-- 2060h.06 AO_POWER_LOST (RO, 03/R79). -/
def aoPowerLost : Key := 0x206006
/-- 2060h.07 START_TIME_US (RO, 03/R79). -/
def startTimeUs : Key := 0x206007
/-- 2070h.01 RESET_REQ (WO, 03/R79). -/
def resetReq : Key := 0x207001
/-- 2080h.01 RECONCILE_STATE (RO, 03/R79). -/
def reconcileState : Key := 0x208001
/-- 2080h.02 UNKNOWN_COUNT (RO, 03/R79). -/
def unknownCount : Key := 0x208002
/-- 2080h.03 STUCK_COUNT (RO, 03/R79). -/
def stuckCount : Key := 0x208003
/-- 2090h.01 SDCLK_DIV (RWL, 06/R154). -/
def sdclkDiv : Key := 0x209001
/-- 2090h.02 SDCLK_ACTIVE (RO, 06/R154). -/
def sdclkActive : Key := 0x209002
/-- 2090h.03 ENGINE_TESTS (RO, 06/R154). -/
def engineTests : Key := 0x209003
/-- 2100h.01 COMMIT (WO, 01/R25). -/
def gCommit (g : Nat) : Key := 0x210001 + 256 * g
/-- 2100h.02 AUTO_COMMIT (RW, 01/R25). -/
def gAuto (g : Nat) : Key := 0x210002 + 256 * g
/-- 2100h.03 COMMIT_RESULT (RO, 01/R25). -/
def gResult (g : Nat) : Key := 0x210003 + 256 * g
/-- 2100h.04 COMMIT_FRAME (RO, 01/R25). -/
def gFrame (g : Nat) : Key := 0x210004 + 256 * g
/-- 2100h.05 PENDING (RO, 01/R25). -/
def gPending (g : Nat) : Key := 0x210005 + 256 * g
/-- 2100h.06 REJECT_COUNT (RO, 01/R25). -/
def gRejects (g : Nat) : Key := 0x210006 + 256 * g
/-- 2800h.01 SITE_MODE (RWS, 04/R103). -/
def siteMode : Key := 0x280001
/-- 2800h.02 IMPORT_LIMIT_W (RWS, 04/R103). -/
def importLimitW : Key := 0x280002
/-- 2800h.03 AUX_RESERVE_W (RWS, 04/R103). -/
def auxReserveW : Key := 0x280003
/-- 2800h.04 GRID_EFF (RWS, 04/R103). -/
def gridEff : Key := 0x280004
/-- 2800h.05 REROUTE_THRESHOLD_W (RWS, 04/R103). -/
def rerouteThresholdW : Key := 0x280005
/-- 2800h.06 HANDOVER_PENALTY_W (RWS, 04/R103). -/
def handoverPenaltyW : Key := 0x280006
/-- 2800h.07 WEAR_W_PER_H (RWS, 04/R103). -/
def wearWPerH : Key := 0x280007
/-- 2800h.08 THERM_KNEE (RWS, 04/R103). -/
def thermKnee : Key := 0x280008
/-- 2800h.09 THERM_W (RWS, 04/R103). -/
def thermW : Key := 0x280009
/-- 2800h.0A DWELL_US (RWS, 04/R103). -/
def dwellUs : Key := 0x28000A
/-- 2800h.0B HO_MAX_OUT (RWS, 04/R103). -/
def hoMaxOut : Key := 0x28000B
/-- 2800h.0C HO_MAX_SITE (RWS, 04/R103). -/
def hoMaxSite : Key := 0x28000C
/-- 2800h.0D BID_EPS_W (RWS, 04/R103). -/
def bidEpsW : Key := 0x28000D
/-- 2800h.0E BAT_CHARGE_EN (RWS, 04/R103). -/
def batChargeEn : Key := 0x28000E
/-- 2800h.0F QUAR_HOLD_US (RWS, 04/R103). -/
def quarHoldUs : Key := 0x28000F
/-- 2810h.01 BUDGET_W (RO, 04/R103). -/
def budgetW : Key := 0x281001
/-- 2810h.02 TRIM_W (RO, 04/R103). -/
def trimW : Key := 0x281002
/-- 2810h.03 PLANNED_W (RO, 04/R103). -/
def plannedW : Key := 0x281003
/-- 2810h.04 GRANTED_W (RO, 04/R103). -/
def grantedW : Key := 0x281004
/-- 2810h.05 BAT_SET_W (RO, 04/R103). -/
def batSetW : Key := 0x281005
/-- 2810h.06 RESULT_STATE (RO, 04/R103). -/
def resultState : Key := 0x281006
/-- 2810h.07 RESULT_FRAME (RO, 04/R103). -/
def resultFrame : Key := 0x281007
/-- 2810h.08 MOVES_DEFERRED (RO, 04/R103). -/
def movesDeferred : Key := 0x281008
/-- 2810h.09 HO_IN_FLIGHT (RO, 04/R103). -/
def hoInFlight : Key := 0x281009
/-- 2820h.01–.0C HANDOVER_n (RO, 04/R103). -/
def handover (j : Nat) : Key := 0x282001 + j
/-- 2840h.01 MOD_MODE (RWS, 04/R103). -/
def modMode (m : Nat) : Key := 0x284001 + 256 * m
/-- 2840h.02 PIN_OUTPUT (RWS, 04/R103). -/
def pinOutput (m : Nat) : Key := 0x284002 + 256 * m
/-- 2840h.03–.0A REACH (RWS, 04/R103). -/
def reach (m j : Nat) : Key := 0x284003 + 256 * m + j
/-- 2840h.0B MOD_I_MAX (RWS, 04/R103). -/
def modIMax (m : Nat) : Key := 0x28400B + 256 * m
/-- 2840h.0C BAT_PORT (RWS, 04/R103). -/
def batPort (m : Nat) : Key := 0x28400C + 256 * m
/-- 2840h.0D DERATE (RO, 04/R103). -/
def modDerate (m : Nat) : Key := 0x28400D + 256 * m
/-- 2840h.10 MOD_STATE (RO, 04/R103). -/
def modState (m : Nat) : Key := 0x284010 + 256 * m
/-- 2840h.11 MOD_OUTPUT (RO, 04/R103). -/
def modOutput (m : Nat) : Key := 0x284011 + 256 * m
/-- 2840h.12 MOD_FLAGS (RO, 04/R103). -/
def modFlags (m : Nat) : Key := 0x284012 + 256 * m
/-- 2840h.13 QUAR_CAUSE (RO, 04/R103). -/
def quarCause (m : Nat) : Key := 0x284013 + 256 * m
/-- 2840h.14 QUAR_COUNT (RO, 04/R103). -/
def quarCount (m : Nat) : Key := 0x284014 + 256 * m
/-- 2840h.15 QUAR_CLEAR (WO, 04/R103). -/
def quarClear (m : Nat) : Key := 0x284015 + 256 * m
/-- 2840h.16 CAP_W (RO, 04/R103). -/
def modCapW (m : Nat) : Key := 0x284016 + 256 * m
/-- 2840h.17 SHARE (RO, 04/R103). -/
def modShare (m : Nat) : Key := 0x284017 + 256 * m
/-- 2840h.18 HEADROOM (RO, 04/R103). -/
def modHeadroom (m : Nat) : Key := 0x284018 + 256 * m
/-- 2840h.19 HOURS (RO, 04/R103). -/
def modHours (m : Nat) : Key := 0x284019 + 256 * m
/-- 3000h.01 CH_ENABLE (RWS, 06/R154). -/
def chEnable (n : Nat) : Key := 0x300001 + 256 * n
/-- 3000h.02 CARRIER_K (RWS, 06/R154). -/
def carrierK (n : Nat) : Key := 0x300002 + 256 * n
/-- 3000h.03 DEAD_TICKS (RWS, 06/R154). -/
def deadTicks (n : Nat) : Key := 0x300003 + 256 * n
/-- 3000h.04 MIN_PULSE (RWS, 06/R154). -/
def minPulse (n : Nat) : Key := 0x300004 + 256 * n
/-- 3000h.05 OPEN_MODE (RWS, 06/R154). -/
def openMode (n : Nat) : Key := 0x300005 + 256 * n
/-- 3000h.06 MANUAL_DUTY (RWS, 06/R154). -/
def manualDuty (n : Nat) : Key := 0x300006 + 256 * n
/-- 3000h.07 I_FS (RWS, 06/R154). -/
def iFs (n : Nat) : Key := 0x300007 + 256 * n
/-- 3000h.08 I_OFFSET (RWS, 06/R154). -/
def iOffset (n : Nat) : Key := 0x300008 + 256 * n
/-- 3000h.09 I_GAIN (RWS, 06/R154). -/
def iGain (n : Nat) : Key := 0x300009 + 256 * n
/-- 3000h.0A OC_WIN (RWS, 06/R154). -/
def ocWin (n : Nat) : Key := 0x30000A + 256 * n
/-- 3000h.0B OC_THRESH (RWS, 06/R154). -/
def ocThresh (n : Nat) : Key := 0x30000B + 256 * n
/-- 3100h.01 CH_STATE (RO, 06/R154). -/
def chState (n : Nat) : Key := 0x310001 + 256 * n
/-- 3100h.02 CH_I (RO, 06/R154). -/
def chI (n : Nat) : Key := 0x310002 + 256 * n
/-- 3100h.03 CH_I_REF (RO, 06/R154). -/
def chIRef (n : Nat) : Key := 0x310003 + 256 * n
/-- 3100h.04 CH_DUTY (RO, 06/R154). -/
def chDuty (n : Nat) : Key := 0x310004 + 256 * n
/-- 3100h.05 ENGINE (RO, 06/R154). -/
def chEngine (n : Nat) : Key := 0x310005 + 256 * n
/-- 3100h.06 LOOP_RATE (RO, 06/R154). -/
def loopRate (n : Nat) : Key := 0x310006 + 256 * n
/-- 3100h.07 BANK_IN_USE (RO, 06/R154). -/
def bankInUse (n : Nat) : Key := 0x310007 + 256 * n
/-- 3100h.08 BANK_A_STATUS (RO, 06/R154). -/
def bankAStatus (n : Nat) : Key := 0x310008 + 256 * n
/-- 3100h.09 BANK_B_STATUS (RO, 06/R154). -/
def bankBStatus (n : Nat) : Key := 0x310009 + 256 * n
/-- 3100h.0A DEAD_EFF (RO, 06/R154). -/
def deadEff (n : Nat) : Key := 0x31000A + 256 * n
/-- 3100h.0B SAT_SAMPLES (RO, 06/R154). -/
def satSamples (n : Nat) : Key := 0x31000B + 256 * n
/-- 3100h.0C OC_EVENTS (RO, 06/R154). -/
def ocEvents (n : Nat) : Key := 0x31000C + 256 * n
/-- 3100h.0D CH_FLAGS (RO, 06/R154). -/
def chFlags (n : Nat) : Key := 0x31000D + 256 * n
/-- 3100h.10 CBC_CNT (RO, 07/R175). -/
def cbcCnt (n : Nat) : Key := 0x310010 + 256 * n
/-- 3100h.11 RETRY_COUNT (RO, 07/R175). -/
def retryCount (n : Nat) : Key := 0x310011 + 256 * n
/-- 3100h.12 HICCUP_LEFT_US (RO, 07/R175). -/
def hiccupLeftUs (n : Nat) : Key := 0x310012 + 256 * n
/-- 3100h.13 PROT_CAUSE (RO, 07/R175). -/
def protCause (n : Nat) : Key := 0x310013 + 256 * n
/-- 3100h.14 LL_ROLE (RO, 07/R175). -/
def llRole (n : Nat) : Key := 0x310014 + 256 * n
/-- 3200h.01 BANK_SEL (RWS, 06/R154). -/
def bankSel (n : Nat) : Key := 0x320001 + 256 * n
/-- 3200h.02 SINC_OSR (RWS, 06/R154). -/
def sincOsr (n : Nat) : Key := 0x320002 + 256 * n
/-- 3200h.10 B0_A (RWS, 06/R154). -/
def b0A (n : Nat) : Key := 0x320010 + 256 * n
/-- 3200h.11 B1_A (RWS, 06/R154). -/
def b1A (n : Nat) : Key := 0x320011 + 256 * n
/-- 3200h.12 B2_A (RWS, 06/R154). -/
def b2A (n : Nat) : Key := 0x320012 + 256 * n
/-- 3200h.13 A1_A (RWS, 06/R154). -/
def a1A (n : Nat) : Key := 0x320013 + 256 * n
/-- 3200h.14 A2_A (RWS, 06/R154). -/
def a2A (n : Nat) : Key := 0x320014 + 256 * n
/-- 3200h.15 KFI_A (RWS, 06/R154). -/
def kfiA (n : Nat) : Key := 0x320015 + 256 * n
/-- 3200h.16 KFO_A (RWS, 06/R154). -/
def kfoA (n : Nat) : Key := 0x320016 + 256 * n
/-- 3200h.17 OUT_LO_A (RWS, 06/R154). -/
def outLoA (n : Nat) : Key := 0x320017 + 256 * n
/-- 3200h.18 OUT_HI_A (RWS, 06/R154). -/
def outHiA (n : Nat) : Key := 0x320018 + 256 * n
/-- 3200h.19 AW_LO_A (RWS, 06/R154). -/
def awLoA (n : Nat) : Key := 0x320019 + 256 * n
/-- 3200h.1A AW_HI_A (RWS, 06/R154). -/
def awHiA (n : Nat) : Key := 0x32001A + 256 * n
/-- 3200h.1B CHECK_A (RWS, 06/R154). -/
def checkA (n : Nat) : Key := 0x32001B + 256 * n
/-- 3200h.20 B0_B (RWS, 06/R154). -/
def b0B (n : Nat) : Key := 0x320020 + 256 * n
/-- 3200h.21 B1_B (RWS, 06/R154). -/
def b1B (n : Nat) : Key := 0x320021 + 256 * n
/-- 3200h.22 B2_B (RWS, 06/R154). -/
def b2B (n : Nat) : Key := 0x320022 + 256 * n
/-- 3200h.23 A1_B (RWS, 06/R154). -/
def a1B (n : Nat) : Key := 0x320023 + 256 * n
/-- 3200h.24 A2_B (RWS, 06/R154). -/
def a2B (n : Nat) : Key := 0x320024 + 256 * n
/-- 3200h.25 KFI_B (RWS, 06/R154). -/
def kfiB (n : Nat) : Key := 0x320025 + 256 * n
/-- 3200h.26 KFO_B (RWS, 06/R154). -/
def kfoB (n : Nat) : Key := 0x320026 + 256 * n
/-- 3200h.27 OUT_LO_B (RWS, 06/R154). -/
def outLoB (n : Nat) : Key := 0x320027 + 256 * n
/-- 3200h.28 OUT_HI_B (RWS, 06/R154). -/
def outHiB (n : Nat) : Key := 0x320028 + 256 * n
/-- 3200h.29 AW_LO_B (RWS, 06/R154). -/
def awLoB (n : Nat) : Key := 0x320029 + 256 * n
/-- 3200h.2A AW_HI_B (RWS, 06/R154). -/
def awHiB (n : Nat) : Key := 0x32002A + 256 * n
/-- 3200h.2B CHECK_B (RWS, 06/R154). -/
def checkB (n : Nat) : Key := 0x32002B + 256 * n
/-- 3400h.01 PHASE_OFS (RWS, 07/R175). -/
def phaseOfs (m : Nat) : Key := 0x340001 + 256 * m
/-- 3400h.02 INTERLEAVE (RWS, 07/R175). -/
def interleave (m : Nat) : Key := 0x340002 + 256 * m
/-- 3400h.03 ROTATE (RWS, 07/R175). -/
def rotate (m : Nat) : Key := 0x340003 + 256 * m
/-- 3400h.04 CBC_N (RWS, 07/R175). -/
def cbcN (m : Nat) : Key := 0x340004 + 256 * m
/-- 3400h.05 HICCUP_OFF_US (RWS, 07/R175). -/
def hiccupOffUs (m : Nat) : Key := 0x340005 + 256 * m
/-- 3400h.06 RETRY_MAX (RWS, 07/R175). -/
def retryMax (m : Nat) : Key := 0x340006 + 256 * m
/-- 3400h.07 CLEAN_RUN_US (RWS, 07/R175). -/
def cleanRunUs (m : Nat) : Key := 0x340007 + 256 * m
/-- 3400h.08 HS_SENSOR (RWS, 07/R175). -/
def hsSensor (m : Nat) : Key := 0x340008 + 256 * m
/-- 3400h.09 TLATCH_SET (RWS, 07/R175). -/
def tlatchSet (m : Nat) : Key := 0x340009 + 256 * m
/-- 3400h.0A TLATCH_REL (RWS, 07/R175). -/
def tlatchRel (m : Nat) : Key := 0x34000A + 256 * m
/-- 3400h.0B TLATCH_DWELL_US (RWS, 07/R175). -/
def tlatchDwellUs (m : Nat) : Key := 0x34000B + 256 * m
/-- 3400h.0C LINK_OV (RWS, 07/R175). -/
def linkOv (m : Nat) : Key := 0x34000C + 256 * m
/-- 3400h.0D LATCH_CLEAR (WO, 07/R175). -/
def latchClear (m : Nat) : Key := 0x34000D + 256 * m
/-- 3400h.10 PHASE_NOW (RO, 07/R175). -/
def phaseNow (m : Nat) : Key := 0x340010 + 256 * m
/-- 3400h.11 PHASE_TARGET (RO, 07/R175). -/
def phaseTarget (m : Nat) : Key := 0x340011 + 256 * m
/-- 3400h.12 TLATCH (RO, 07/R175). -/
def tlatch (m : Nat) : Key := 0x340012 + 256 * m
/-- 3400h.13 TRIP_CAUSES (RO, 07/R175). -/
def tripCauses (m : Nat) : Key := 0x340013 + 256 * m
/-- 3400h.14 HS_TEMP (RO, 07/R175). -/
def hsTemp (m : Nat) : Key := 0x340014 + 256 * m
/-- 3400h.15 TRIP_COUNT (RO, 07/R175). -/
def modTripCount (m : Nat) : Key := 0x340015 + 256 * m
/-- 3480h.01 VIN_SOURCE (RWS, 06/R154). -/
def vinSource (m : Nat) : Key := 0x348001 + 256 * m
/-- 3480h.02 VIN_FIXED (RWS, 06/R154). -/
def vinFixed (m : Nat) : Key := 0x348002 + 256 * m
/-- 3480h.03 V_INNOM (RWS, 06/R154). -/
def vInnom (m : Nat) : Key := 0x348003 + 256 * m
/-- 3480h.04 LINK_V_FS (RWS, 06/R154). -/
def linkVFs (m : Nat) : Key := 0x348004 + 256 * m
/-- 3480h.05 LINK_OSR (RWS, 06/R154). -/
def linkOsr (m : Nat) : Key := 0x348005 + 256 * m
/-- 3480h.06 NODE_KP (RWS, 06/R154). -/
def nodeKp (m : Nat) : Key := 0x348006 + 256 * m
/-- 3480h.07 PREREG_I_LIM (RWS, 06/R154). -/
def preregILim (m : Nat) : Key := 0x348007 + 256 * m
/-- 3480h.10 VIN (RO, 06/R154). -/
def vin (m : Nat) : Key := 0x348010 + 256 * m
/-- 3480h.11 V_LINK (RO, 06/R154). -/
def vLink (m : Nat) : Key := 0x348011 + 256 * m
/-- 3480h.12 NODE_STATE (RO, 06/R154). -/
def nodeState (m : Nat) : Key := 0x348012 + 256 * m
/-- 34C0h.01–.08 CARD_SLOT (RO, 07/R175). -/
def cardSlot (m j : Nat) : Key := 0x34C001 + 256 * m + j
/-- 34C0h.09 NEWEST (RO, 07/R175). -/
def newest (m : Nat) : Key := 0x34C009 + 256 * m
/-- 34C0h.0A LAST_CARD_NO (RO, 07/R175). -/
def lastCardNo (m : Nat) : Key := 0x34C00A + 256 * m
/-- 34C0h.0B CARDS_UNSAVED (RO, 07/R175). -/
def cardsUnsaved (m : Nat) : Key := 0x34C00B + 256 * m
/-- 34C0h.0C LATCH_MASK (RO, 07/R175). -/
def latchMask (m : Nat) : Key := 0x34C00C + 256 * m
/-- 34C0h.0D CARDS_ERASE (RWL, 07/R175). -/
def cardsErase (m : Nat) : Key := 0x34C00D + 256 * m
/-- 3600h.01 OUT_REQ_I (RO, 04/R103). -/
def outReqI (k : Nat) : Key := 0x360001 + 256 * k
/-- 3600h.02 OUT_REQ_V (RO, 04/R103). -/
def outReqV (k : Nat) : Key := 0x360002 + 256 * k
/-- 3600h.03 OUT_GRANT_I (RO, 04/R103). -/
def outGrantI (k : Nat) : Key := 0x360003 + 256 * k
/-- 3600h.04 OUT_MIN_I (RO, 04/R103). -/
def outMinI (k : Nat) : Key := 0x360004 + 256 * k
/-- 3600h.05 OUT_CAP_I (RO, 04/R103). -/
def outCapI (k : Nat) : Key := 0x360005 + 256 * k
/-- 3600h.06 OUT_RATED_I (RWS, 04/R103). -/
def outRatedI (k : Nat) : Key := 0x360006 + 256 * k
/-- 3600h.07 OUT_PRIORITY (RWS, 04/R103). -/
def outPriority (k : Nat) : Key := 0x360007 + 256 * k
/-- 3600h.08 OUT_HO_RAMP (RWS, 04/R103). -/
def outHoRamp (k : Nat) : Key := 0x360008 + 256 * k
/-- 3600h.09 OUT_TARGET_W (RO, 04/R103). -/
def outTargetW (k : Nat) : Key := 0x360009 + 256 * k
/-- 3600h.0A OUT_MODULES (RO, 04/R103). -/
def outModules (k : Nat) : Key := 0x36000A + 256 * k
/-- 3600h.0B OUT_SHORTFALL (RO, 04/R103). -/
def outShortfall (k : Nat) : Key := 0x36000B + 256 * k
/-- 3600h.0C OUT_EVENT_QUEUE (RWS, 04/R103). -/
def outEventQueue (k : Nat) : Key := 0x36000C + 256 * k
/-- 3600h.10 OUT_MAX_V (RWS, 05/R114). -/
def outMaxV (k : Nat) : Key := 0x360010 + 256 * k
/-- 3600h.11 OUT_STATE (RO, 05/R114). -/
def outState (k : Nat) : Key := 0x360011 + 256 * k
/-- 3600h.12 OUT_END_CAUSE (RO, 05/R114). -/
def outEndCause (k : Nat) : Key := 0x360012 + 256 * k
/-- 3600h.13 ISO_DWELL_US (RWS, 05/R114). -/
def isoDwellUs (k : Nat) : Key := 0x360013 + 256 * k
/-- 3600h.14 ISO_WARN (RWS, 05/R114). -/
def isoWarn (k : Nat) : Key := 0x360014 + 256 * k
/-- 3600h.15 ISO_RESULT (RO, 05/R114). -/
def isoResult (k : Nat) : Key := 0x360015 + 256 * k
/-- 3600h.16 PRECHG_TOL (RWS, 05/R114). -/
def prechgTol (k : Nat) : Key := 0x360016 + 256 * k
/-- 3600h.17 PRECHG_I_LIM (RWS, 05/R114). -/
def prechgILim (k : Nat) : Key := 0x360017 + 256 * k
/-- 3600h.18 RAMPDOWN_RATE (RWS, 05/R114). -/
def rampdownRate (k : Nat) : Key := 0x360018 + 256 * k
/-- 3600h.19 WELD_V (RWS, 05/R114). -/
def weldV (k : Nat) : Key := 0x360019 + 256 * k
/-- 3600h.1A PAUSE_LIMIT_US (RWS, 05/R114). -/
def pauseLimitUs (k : Nat) : Key := 0x36001A + 256 * k
/-- 3600h.1B OUT_STOP (WO, 05/R114). -/
def outStop (k : Nat) : Key := 0x36001B + 256 * k
/-- 3600h.1C FAULT_CLEAR (WO, 05/R114). -/
def faultClear (k : Nat) : Key := 0x36001C + 256 * k
/-- 3600h.1D SESSION_NO (RO, 05/R114). -/
def sessionNo (k : Nat) : Key := 0x36001D + 256 * k
/-- 3600h.1E STATE_FRAME (RO, 05/R114). -/
def stateFrame (k : Nat) : Key := 0x36001E + 256 * k
/-- 3600h.1F CONTACTORS (RO, 05/R114). -/
def contactors (k : Nat) : Key := 0x36001F + 256 * k
/-- 3600h.20 OUTER_DIV (RWS, 06/R154). -/
def outerDiv (k : Nat) : Key := 0x360020 + 256 * k
/-- 3600h.21 V_FS (RWS, 06/R154). -/
def vFs (k : Nat) : Key := 0x360021 + 256 * k
/-- 3600h.22 OUT_I_FS (RWS, 06/R154). -/
def outIFs (k : Nat) : Key := 0x360022 + 256 * k
/-- 3600h.23 V_OSR (RWS, 06/R154). -/
def vOsr (k : Nat) : Key := 0x360023 + 256 * k
/-- 3600h.24 VB0 (RWS, 06/R154). -/
def vb0 (k : Nat) : Key := 0x360024 + 256 * k
/-- 3600h.25 VB1 (RWS, 06/R154). -/
def vb1 (k : Nat) : Key := 0x360025 + 256 * k
/-- 3600h.26 VB2 (RWS, 06/R154). -/
def vb2 (k : Nat) : Key := 0x360026 + 256 * k
/-- 3600h.27 VA1 (RWS, 06/R154). -/
def va1 (k : Nat) : Key := 0x360027 + 256 * k
/-- 3600h.28 VA2 (RWS, 06/R154). -/
def va2 (k : Nat) : Key := 0x360028 + 256 * k
/-- 3600h.29 VKFI (RWS, 06/R154). -/
def vkfi (k : Nat) : Key := 0x360029 + 256 * k
/-- 3600h.2A VKFO (RWS, 06/R154). -/
def vkfo (k : Nat) : Key := 0x36002A + 256 * k
/-- 3600h.2B VOUT_LO (RWS, 06/R154). -/
def voutLo (k : Nat) : Key := 0x36002B + 256 * k
/-- 3600h.2C VOUT_HI (RWS, 06/R154). -/
def voutHi (k : Nat) : Key := 0x36002C + 256 * k
/-- 3600h.2D VAW_LO (RWS, 06/R154). -/
def vawLo (k : Nat) : Key := 0x36002D + 256 * k
/-- 3600h.2E VAW_HI (RWS, 06/R154). -/
def vawHi (k : Nat) : Key := 0x36002E + 256 * k
/-- 3600h.2F V_CHECK (RWS, 06/R154). -/
def vCheck (k : Nat) : Key := 0x36002F + 256 * k
/-- 3600h.30 PV_RATE (RWS, 06/R154). -/
def pvRate (k : Nat) : Key := 0x360030 + 256 * k
/-- 3600h.31 PV_ACC (RWS, 06/R154). -/
def pvAcc (k : Nat) : Key := 0x360031 + 256 * k
/-- 3600h.32 PV_JERK (RWS, 06/R154). -/
def pvJerk (k : Nat) : Key := 0x360032 + 256 * k
/-- 3600h.33 PI_RATE (RWS, 06/R154). -/
def piRate (k : Nat) : Key := 0x360033 + 256 * k
/-- 3600h.34 PI_ACC (RWS, 06/R154). -/
def piAcc (k : Nat) : Key := 0x360034 + 256 * k
/-- 3600h.35 PI_JERK (RWS, 06/R154). -/
def piJerk (k : Nat) : Key := 0x360035 + 256 * k
/-- 3600h.38 VCOEF_STATUS (RO, 06/R154). -/
def vcoefStatus (k : Nat) : Key := 0x360038 + 256 * k
/-- 3600h.39 PV_VALUE (RO, 06/R154). -/
def pvValue (k : Nat) : Key := 0x360039 + 256 * k
/-- 3600h.3A PI_VALUE (RO, 06/R154). -/
def piValue (k : Nat) : Key := 0x36003A + 256 * k
/-- 3600h.3B I_TOTAL_REF (RO, 06/R154). -/
def iTotalRef (k : Nat) : Key := 0x36003B + 256 * k
/-- 3600h.3C V_OUT (RO, 06/R154). -/
def vOut (k : Nat) : Key := 0x36003C + 256 * k
/-- 3600h.3D I_OUT (RO, 06/R154). -/
def iOut (k : Nat) : Key := 0x36003D + 256 * k
/-- 3600h.3E LOOP_ENGINE (RO, 06/R154). -/
def loopEngine (k : Nat) : Key := 0x36003E + 256 * k
/-- 3600h.3F PROFILE_FLAGS (RO, 06/R154). -/
def profileFlags (k : Nat) : Key := 0x36003F + 256 * k
/-- 3600h.40 LL_ENABLE (RWS, 07/R175). -/
def llEnable (k : Nat) : Key := 0x360040 + 256 * k
/-- 3600h.41 SHED_FILL (RWS, 07/R175). -/
def shedFill (k : Nat) : Key := 0x360041 + 256 * k
/-- 3600h.42 RESTORE_FILL (RWS, 07/R175). -/
def restoreFill (k : Nat) : Key := 0x360042 + 256 * k
/-- 3600h.43 SHED_DWELL_US (RWS, 07/R175). -/
def shedDwellUs (k : Nat) : Key := 0x360043 + 256 * k
/-- 3600h.44 SETTLE_US (RWS, 07/R175). -/
def settleUs (k : Nat) : Key := 0x360044 + 256 * k
/-- 3600h.45 BURST_ENTER (RWS, 07/R175). -/
def burstEnter (k : Nat) : Key := 0x360045 + 256 * k
/-- 3600h.46 BURST_EXIT (RWS, 07/R175). -/
def burstExit (k : Nat) : Key := 0x360046 + 256 * k
/-- 3600h.47 BURST_K (RWS, 07/R175). -/
def burstK (k : Nat) : Key := 0x360047 + 256 * k
/-- 3600h.48 BURST_OFF_K (RWS, 07/R175). -/
def burstOffK (k : Nat) : Key := 0x360048 + 256 * k
/-- 3600h.49 LL_MODE (RO, 07/R175). -/
def llMode (k : Nat) : Key := 0x360049 + 256 * k
/-- 3600h.4A SHED_LEVEL (RO, 07/R175). -/
def shedLevel (k : Nat) : Key := 0x36004A + 256 * k
/-- 3600h.4B LL_ABORTS (RO, 07/R175). -/
def llAborts (k : Nat) : Key := 0x36004B + 256 * k
/-- 3700h.01 SGL_ENABLE (RWS, 05/R125). -/
def sglEnable (l : Nat) : Key := 0x370001 + 256 * l
/-- 3700h.02 EXP_ENABLE (RWS, 05/R125). -/
def expEnable (l : Nat) : Key := 0x370002 + 256 * l
/-- 3700h.03 LINK_STATE (RO, 05/R125). -/
def sglLinkState (l : Nat) : Key := 0x370003 + 256 * l
/-- 3700h.04 CYCLE_COUNT (RO, 05/R125). -/
def cycleCount (l : Nat) : Key := 0x370004 + 256 * l
/-- 3700h.05 CRC_ERRORS (RO, 05/R125). -/
def crcErrors (l : Nat) : Key := 0x370005 + 256 * l
/-- 3700h.06 NO_RESPONSE (RO, 05/R125). -/
def noResponse (l : Nat) : Key := 0x370006 + 256 * l
/-- 3700h.07 ENTRIES_DEFERRED (RO, 05/R125). -/
def entriesDeferred (l : Nat) : Key := 0x370007 + 256 * l
/-- 3700h.08 LOST_MASK (RO, 05/R125). -/
def lostMask (l : Nat) : Key := 0x370008 + 256 * l
/-- 3700h.09 SGL_EVENT_QUEUE (RWS, 05/R125). -/
def sglEventQueue (l : Nat) : Key := 0x370009 + 256 * l
/-- 3720h.01 EXP_CMD (RO, 05/R125). -/
def expCmd (x : Nat) : Key := 0x372001 + 256 * x
/-- 3720h.02 EXP_AUX (RO, 05/R125). -/
def expAux (x : Nat) : Key := 0x372002 + 256 * x
/-- 3720h.03 EXP_FLAGS (RO, 05/R125). -/
def expFlags (x : Nat) : Key := 0x372003 + 256 * x
/-- 3720h.04–.13 COIL_I (RO, 05/R125). -/
def coilI (x j : Nat) : Key := 0x372004 + 256 * x + j
/-- 3720h.14 GP_CMD (RWS, 05/R125). -/
def gpCmd (x : Nat) : Key := 0x372014 + 256 * x
/-- 3800h.01 SHUNT_NOHM (RWS, 08/R209). -/
def shuntNohm (k : Nat) : Key := 0x380001 + 256 * k
/-- 3800h.02 DIV_RATIO (RWS, 08/R209). -/
def divRatio (k : Nat) : Key := 0x380002 + 256 * k
/-- 3800h.03 DC_I_NOM (RWS, 08/R209). -/
def dcINom (k : Nat) : Key := 0x380003 + 256 * k
/-- 3800h.0F METER_CONTEXT (RW, 08/R209). -/
def meterContext (k : Nat) : Key := 0x38000F + 256 * k
/-- 3800h.10 STATUS (RO, 08/R209). -/
def dcStatus (k : Nat) : Key := 0x380010 + 256 * k
/-- 3800h.11 V_INST (RO, 08/R209). -/
def dcVInst (k : Nat) : Key := 0x380011 + 256 * k
/-- 3800h.12 I_INST (RO, 08/R209). -/
def dcIInst (k : Nat) : Key := 0x380012 + 256 * k
/-- 3800h.13 P_INT (RO, 08/R209). -/
def dcPInt (k : Nat) : Key := 0x380013 + 256 * k
/-- 3800h.14 E_IMP (RO, 08/R209). -/
def dcEImp (k : Nat) : Key := 0x380014 + 256 * k
/-- 3800h.15 E_EXP (RO, 08/R209). -/
def dcEExp (k : Nat) : Key := 0x380015 + 256 * k
/-- 3800h.16 SESS_IMP (RO, 08/R209). -/
def dcSessImp (k : Nat) : Key := 0x380016 + 256 * k
/-- 3800h.17 SESS_EXP (RO, 08/R209). -/
def dcSessExp (k : Nat) : Key := 0x380017 + 256 * k
/-- 3800h.18 SESS_STATE (RO, 08/R209). -/
def dcSessState (k : Nat) : Key := 0x380018 + 256 * k
/-- 3800h.19 SESS_START_SEQ (RO, 08/R209). -/
def dcSessStartSeq (k : Nat) : Key := 0x380019 + 256 * k
/-- 3800h.1A P_MAX_W (RO, 08/R209). -/
def dcPMax (k : Nat) : Key := 0x38001A + 256 * k
/-- 3840h.01 SENSOR_TYPE (RWS, 08/R209). -/
def sensorType (g : Nat) : Key := 0x384001 + 256 * g
/-- 3840h.02 I_SCALE (RWS, 08/R209). -/
def iScale (g : Nat) : Key := 0x384002 + 256 * g
/-- 3840h.03 COIL_SENS (RWS, 08/R209). -/
def coilSens (g : Nat) : Key := 0x384003 + 256 * g
/-- 3840h.04 V_SCALE (RWS, 08/R209). -/
def vScale (g : Nat) : Key := 0x384004 + 256 * g
/-- 3840h.05 GRID_P_MAX (RWS, 08/R209). -/
def gridPMax (g : Nat) : Key := 0x384005 + 256 * g
/-- 3840h.06 GRID_V_NOM (RWS, 08/R209). -/
def gridVNom (g : Nat) : Key := 0x384006 + 256 * g
/-- 3840h.10 STATUS (RO, 08/R209). -/
def gpStatus (g : Nat) : Key := 0x384010 + 256 * g
/-- 3840h.11 FREQ (RO, 08/R209). -/
def gpFreq (g : Nat) : Key := 0x384011 + 256 * g
/-- 3840h.12 P_TOT (RO, 08/R209). -/
def gpPTot (g : Nat) : Key := 0x384012 + 256 * g
/-- 3840h.13 P_FUND (RO, 08/R209). -/
def gpPFund (g : Nat) : Key := 0x384013 + 256 * g
/-- 3840h.14 Q_FUND (RO, 08/R209). -/
def gpQFund (g : Nat) : Key := 0x384014 + 256 * g
/-- 3840h.15 N_TOT (RO, 08/R209). -/
def gpNTot (g : Nat) : Key := 0x384015 + 256 * g
/-- 3840h.16 S_TOT (RO, 08/R209). -/
def gpSTot (g : Nat) : Key := 0x384016 + 256 * g
/-- 3840h.17 PF (RO, 08/R209). -/
def gpPf (g : Nat) : Key := 0x384017 + 256 * g
/-- 3840h.18 E_IMP (RO, 08/R209). -/
def gpEImp (g : Nat) : Key := 0x384018 + 256 * g
/-- 3840h.19 E_EXP (RO, 08/R209). -/
def gpEExp (g : Nat) : Key := 0x384019 + 256 * g
/-- 3840h.1A E_IMP_FUND (RO, 08/R209). -/
def gpEImpFund (g : Nat) : Key := 0x38401A + 256 * g
/-- 3840h.1B E_EXP_FUND (RO, 08/R209). -/
def gpEExpFund (g : Nat) : Key := 0x38401B + 256 * g
/-- 3840h.1C–.1F E_Q1 (RO, 08/R209). -/
def gpEQ (g j : Nat) : Key := 0x38401C + 256 * g + j
/-- 3848h.01 V_RMS (RO, 08/R209). -/
def phVRms (x : Nat) : Key := 0x384801 + 256 * x
/-- 3848h.02 I_RMS (RO, 08/R209). -/
def phIRms (x : Nat) : Key := 0x384802 + 256 * x
/-- 3848h.03 P (RO, 08/R209). -/
def phP (x : Nat) : Key := 0x384803 + 256 * x
/-- 3848h.04 Q1 (RO, 08/R209). -/
def phQ1 (x : Nat) : Key := 0x384804 + 256 * x
/-- 3848h.05 S (RO, 08/R209). -/
def phS (x : Nat) : Key := 0x384805 + 256 * x
/-- 3848h.06 THD_V (RO, 08/R209). -/
def phThdV (x : Nat) : Key := 0x384806 + 256 * x
/-- 3848h.07 THD_I (RO, 08/R209). -/
def phThdI (x : Nat) : Key := 0x384807 + 256 * x
/-- 3880h.01 PULSE_SRC (RWS, 08/R209). -/
def pulseSrc (j : Nat) : Key := 0x388001 + 256 * j
/-- 3880h.02 PULSE_REG (RWS, 08/R209). -/
def pulseReg (j : Nat) : Key := 0x388002 + 256 * j
/-- 3880h.03 PULSE_CONST (RWS, 08/R209). -/
def pulseConst (j : Nat) : Key := 0x388003 + 256 * j
/-- 3880h.04 PULSE_WIDTH_US (RWS, 08/R209). -/
def pulseWidthUs (j : Nat) : Key := 0x388004 + 256 * j
/-- 3880h.05 PULSE_BACKLOG (RO, 08/R209). -/
def pulseBacklog (j : Nat) : Key := 0x388005 + 256 * j
/-- 3880h.06 PULSE_COUNT (RO, 08/R209). -/
def pulseCount (j : Nat) : Key := 0x388006 + 256 * j
/-- 3880h.07 PULSE_OVERRANGE (RO, 08/R209). -/
def pulseOverrange (j : Nat) : Key := 0x388007 + 256 * j
/-- 3A00h.01 LATCH_N (RWS, 08/R209). -/
def latchN : Key := 0x3A0001
/-- 3A00h.02 ZC_SOURCE (RWS, 08/R209). -/
def zcSource : Key := 0x3A0002
/-- 3A00h.03 ZC_TIMEOUT_US (RWS, 08/R209). -/
def zcTimeoutUs : Key := 0x3A0003
/-- 3A00h.04 PFW_MODE (RWS, 08/R209). -/
def pfwMode : Key := 0x3A0004
/-- 3A00h.05 LATCH_SEQ (RO, 08/R209). -/
def latchSeq : Key := 0x3A0005
/-- 3A00h.06 LATCH_TIME (RO, 08/R209). -/
def latchTime : Key := 0x3A0006
/-- 3A00h.07 INTERVAL_US (RO, 08/R209). -/
def intervalUs : Key := 0x3A0007
/-- 3A00h.08 TICK_SOURCE (RO, 08/R209). -/
def tickSource : Key := 0x3A0008
/-- 3A00h.09 GRID_IMPORT_W (RO, 08/R209). -/
def gridImportW : Key := 0x3A0009
/-- 3A00h.0A MT_STATE (RO, 08/R209). -/
def mtState : Key := 0x3A000A
/-- 3A00h.0B VREF_DRIFT (RO, 08/R209). -/
def vrefDrift : Key := 0x3A000B
/-- 3A00h.0C DRIFT_CLEAR (RWL, 08/R209). -/
def driftClear : Key := 0x3A000C
/-- 3A00h.0D LAST_SAVE_TIME (RO, 08/R209). -/
def lastSaveTime : Key := 0x3A000D
/-- 3A00h.0E WARN_COUNT (RO, 08/R209). -/
def warnCount : Key := 0x3A000E
/-- 3A10h.01 LEDGER_NEWEST (RO, 08/R209). -/
def ledgerNewest : Key := 0x3A1001
/-- 3A10h.02 LEDGER_OLDEST (RO, 08/R209). -/
def ledgerOldest : Key := 0x3A1002
/-- 3A10h.03 LEDGER_ACK (RW, 08/R209). -/
def ledgerAck : Key := 0x3A1003
/-- 3A10h.04 LEDGER_FREE (RO, 08/R209). -/
def ledgerFree : Key := 0x3A1004
/-- 3A10h.05 LEDGER_READ (RW, 08/R209). -/
def ledgerRead : Key := 0x3A1005
/-- 3A10h.06 LEDGER_ENTRY (RO, 08/R209). -/
def ledgerEntry : Key := 0x3A1006
/-- 3A10h.07 SNAPSHOT_REQ (WO, 08/R209). -/
def snapshotReq : Key := 0x3A1007
/-- 3A10h.08 LEDGER_DROPPED (RO, 08/R209). -/
def ledgerDropped : Key := 0x3A1008
/-- 3A20h.01 FW_AUDIT (RO, 08/R209). -/
def fwAudit : Key := 0x3A2001
/-- 3A20h.02 PARAM_AUDIT (RO, 08/R209). -/
def paramAudit : Key := 0x3A2002
/-- 3A20h.03 FW_DIGEST (RO, 08/R209). -/
def fwDigest : Key := 0x3A2003
/-- 3A20h.04 PUBKEY (RO, 08/R209). -/
def pubkey : Key := 0x3A2004
/-- 3A20h.05 KEY_ID (RO, 08/R209). -/
def keyId : Key := 0x3A2005
/-- 3A20h.06 KEY_STATE (RO, 08/R209). -/
def keyState : Key := 0x3A2006
/-- 3C00h.01 BAND (RO, 09/R225). -/
def band : Key := 0x3C0001
/-- 3C00h.02 BAND_OWN (RO, 09/R225). -/
def bandOwn : Key := 0x3C0002
/-- 3C00h.03 DIE_MAX (RO, 09/R225). -/
def dieMax : Key := 0x3C0003
/-- 3C00h.04 DIE_STEPS (RO, 09/R225). -/
def dieSteps : Key := 0x3C0004
/-- 3C00h.05 BAND_FRAME (RO, 09/R225). -/
def bandFrame : Key := 0x3C0005
/-- 3C00h.06 THROTTLE_RELEASE_US (RWS, 09/R225). -/
def throttleReleaseUs : Key := 0x3C0006
/-- 3C00h.07 HK_EVENT_QUEUE (RWS, 09/R225). -/
def hkEventQueue : Key := 0x3C0007
/-- 3C10h.01 HK_TYPE (RWS, 09/R225). -/
def hkType (c : Nat) : Key := 0x3C1001 + 256 * c
/-- 3C10h.02 NTC_RNOM (RWS, 09/R225). -/
def ntcRnom (c : Nat) : Key := 0x3C1002 + 256 * c
/-- 3C10h.03 NTC_BETA (RWS, 09/R225). -/
def ntcBeta (c : Nat) : Key := 0x3C1003 + 256 * c
/-- 3C10h.04 ENG_LO (RWS, 09/R225). -/
def engLo (c : Nat) : Key := 0x3C1004 + 256 * c
/-- 3C10h.05 ENG_HI (RWS, 09/R225). -/
def engHi (c : Nat) : Key := 0x3C1005 + 256 * c
/-- 3C10h.10 HK_VALUE (RO, 09/R225). -/
def hkValue (c : Nat) : Key := 0x3C1010 + 256 * c
/-- 3C10h.11 HK_RAW (RO, 09/R225). -/
def hkRaw (c : Nat) : Key := 0x3C1011 + 256 * c
/-- 3C10h.12 HK_STATUS (RO, 09/R225). -/
def hkStatus (c : Nat) : Key := 0x3C1012 + 256 * c
/-- 3C60h.01–.10 DIE_T (RO, 09/R225). -/
def dieT (j : Nat) : Key := 0x3C6001 + j
/-- 3C70h.01–.18 SUPPLY (RO, 09/R225). -/
def supply (j : Nat) : Key := 0x3C7001 + j
/-- 3C80h.01 HS_WARN (RWS, 09/R225). -/
def hsWarn (m : Nat) : Key := 0x3C8001 + 256 * m
/-- 3C80h.02 HS_HYST (RWS, 09/R225). -/
def hsHyst (m : Nat) : Key := 0x3C8002 + 256 * m
/-- 3C80h.03 HS_STEPS (RO, 09/R225). -/
def hsSteps (m : Nat) : Key := 0x3C8003 + 256 * m
/-- 3D00h.01 CABLE_ENABLE (RWS, 09/R225). -/
def cableEnable (k : Nat) : Key := 0x3D0001 + 256 * k
/-- 3D00h.02 COOL_LOOP (RWS, 09/R225). -/
def coolLoop (k : Nat) : Key := 0x3D0002 + 256 * k
/-- 3D00h.03 AMB_CH (RWS, 09/R225). -/
def ambCh (k : Nat) : Key := 0x3D0003 + 256 * k
/-- 3D00h.04 AMB_FIXED (RWS, 09/R225). -/
def ambFixed (k : Nat) : Key := 0x3D0004 + 256 * k
/-- 3D00h.05 PIN_CH0 (RWS, 09/R225). -/
def pinCh0 (k : Nat) : Key := 0x3D0005 + 256 * k
/-- 3D00h.06 PIN_CH1 (RWS, 09/R225). -/
def pinCh1 (k : Nat) : Key := 0x3D0006 + 256 * k
/-- 3D00h.07 COND_UOHM (RWS, 09/R225). -/
def condUohm (k : Nat) : Key := 0x3D0007 + 256 * k
/-- 3D00h.08 CONTACT_UOHM (RWS, 09/R225). -/
def contactUohm (k : Nat) : Key := 0x3D0008 + 256 * k
/-- 3D00h.09 C_COND (RWS, 09/R225). -/
def cCond (k : Nat) : Key := 0x3D0009 + 256 * k
/-- 3D00h.0A C_JACKET (RWS, 09/R225). -/
def cJacket (k : Nat) : Key := 0x3D000A + 256 * k
/-- 3D00h.0B C_COOL (RWS, 09/R225). -/
def cCool (k : Nat) : Key := 0x3D000B + 256 * k
/-- 3D00h.0C G_CW (RWS, 09/R225). -/
def gCw (k : Nat) : Key := 0x3D000C + 256 * k
/-- 3D00h.0D G_CJ (RWS, 09/R225). -/
def gCj (k : Nat) : Key := 0x3D000D + 256 * k
/-- 3D00h.0E G_JA (RWS, 09/R225). -/
def gJa (k : Nat) : Key := 0x3D000E + 256 * k
/-- 3D00h.0F G_PIN (RWS, 09/R225). -/
def gPin (k : Nat) : Key := 0x3D000F + 256 * k
/-- 3D00h.10 COOL_CP (RWS, 09/R225). -/
def coolCp (k : Nat) : Key := 0x3D0010 + 256 * k
/-- 3D00h.11 CABLE_I_BOOST (RWS, 09/R225). -/
def cableIBoost (k : Nat) : Key := 0x3D0011 + 256 * k
/-- 3D00h.12 COND_WARN (RWS, 09/R225). -/
def condWarn (k : Nat) : Key := 0x3D0012 + 256 * k
/-- 3D00h.13 COND_TRIP (RWS, 09/R225). -/
def condTrip (k : Nat) : Key := 0x3D0013 + 256 * k
/-- 3D00h.14 CONTACT_WARN (RWS, 09/R225). -/
def contactWarn (k : Nat) : Key := 0x3D0014 + 256 * k
/-- 3D00h.15 CONTACT_TRIP (RWS, 09/R225). -/
def contactTrip (k : Nat) : Key := 0x3D0015 + 256 * k
/-- 3D00h.16 CABLE_HYST (RWS, 09/R225). -/
def cableHyst (k : Nat) : Key := 0x3D0016 + 256 * k
/-- 3D00h.17 CORR_GAIN (RWS, 09/R225). -/
def corrGain (k : Nat) : Key := 0x3D0017 + 256 * k
/-- 3D00h.18 CORR_MAX (RWS, 09/R225). -/
def corrMax (k : Nat) : Key := 0x3D0018 + 256 * k
/-- 3D00h.20 T_COND (RO, 09/R225). -/
def tCond (k : Nat) : Key := 0x3D0020 + 256 * k
/-- 3D00h.21 T_JACKET (RO, 09/R225). -/
def tJacket (k : Nat) : Key := 0x3D0021 + 256 * k
/-- 3D00h.22 T_COOL (RO, 09/R225). -/
def tCool (k : Nat) : Key := 0x3D0022 + 256 * k
/-- 3D00h.23 T_CONTACT (RO, 09/R225). -/
def tContact (k : Nat) : Key := 0x3D0023 + 256 * k
/-- 3D00h.24 CORR (RO, 09/R225). -/
def cableCorr (k : Nat) : Key := 0x3D0024 + 256 * k
/-- 3D00h.25 CABLE_STEPS (RO, 09/R225). -/
def cableSteps (k : Nat) : Key := 0x3D0025 + 256 * k
/-- 3D00h.26 CABLE_I_LIM (RO, 09/R225). -/
def cableILim (k : Nat) : Key := 0x3D0026 + 256 * k
/-- 3D00h.27 CABLE_FLAGS (RO, 09/R225). -/
def cableFlags (k : Nat) : Key := 0x3D0027 + 256 * k
/-- 3D40h.01 LOOP_OUTPUTS (RWS, 09/R225). -/
def loopOutputs (j : Nat) : Key := 0x3D4001 + 256 * j
/-- 3D40h.02 INLET_CH (RWS, 09/R225). -/
def inletCh (j : Nat) : Key := 0x3D4002 + 256 * j
/-- 3D40h.03 FLOW_CH (RWS, 09/R225). -/
def flowCh (j : Nat) : Key := 0x3D4003 + 256 * j
/-- 3D40h.04 RETURN_CH (RWS, 09/R225). -/
def returnCh (j : Nat) : Key := 0x3D4004 + 256 * j
/-- 3D40h.05–.08 STAGE_FS (RWS, 09/R225). -/
def stageFs (j i : Nat) : Key := 0x3D4005 + 256 * j + i
/-- 3D40h.09–.0C STAGE_ON (RWS, 09/R225). -/
def stageOn (j i : Nat) : Key := 0x3D4009 + 256 * j + i
/-- 3D40h.0D STAGE_HYST (RWS, 09/R225). -/
def stageHyst (j : Nat) : Key := 0x3D400D + 256 * j
/-- 3D40h.0E STAGE_MIN_US (RWS, 09/R225). -/
def stageMinUs (j : Nat) : Key := 0x3D400E + 256 * j
/-- 3D40h.0F FLOW_MIN (RWS, 09/R225). -/
def flowMin (j : Nat) : Key := 0x3D400F + 256 * j
/-- 3D40h.10 RUN_ON_US (RWS, 09/R225). -/
def runOnUs (j : Nat) : Key := 0x3D4010 + 256 * j
/-- 3D40h.11 INLET_FAULT_T (RWS, 09/R225). -/
def inletFaultT (j : Nat) : Key := 0x3D4011 + 256 * j
/-- 3D40h.20 STAGES_ON (RO, 09/R225). -/
def stagesOn (j : Nat) : Key := 0x3D4020 + 256 * j
/-- 3D40h.21 FLOW (RO, 09/R225). -/
def loopFlow (j : Nat) : Key := 0x3D4021 + 256 * j
/-- 3D40h.22 LOOP_FLAGS (RO, 09/R225). -/
def loopFlags (j : Nat) : Key := 0x3D4022 + 256 * j
/-- 3E00h.01 FS_PAIR (RWS, 10/R241). -/
def fsPair : Key := 0x3E0001
/-- 3E00h.02 FLD_STATE (RO, 10/R241). -/
def fldState : Key := 0x3E0002
/-- 3E00h.03 VFLD_MV (RO, 10/R241). -/
def vfldMv : Key := 0x3E0003
/-- 3E00h.04 FLD_RESTARTS (RO, 10/R241). -/
def fldRestarts : Key := 0x3E0004
/-- 3E00h.05 FS_ON_MASK (RO, 10/R241). -/
def fsOnMask : Key := 0x3E0005
/-- 3E00h.06 FS_FAULT_MASK (RO, 10/R241). -/
def fsFaultMask : Key := 0x3E0006
/-- 3E00h.07 FS_EVENT_QUEUE (RWS, 10/R241). -/
def fsEventQueue : Key := 0x3E0007
/-- 3E00h.08 FS_DIN_STATE (RO, 10/R241). -/
def fsDinState : Key := 0x3E0008
/-- 3E10h.01 FS_MODE (RWS, 10/R241). -/
def fsMode (j : Nat) : Key := 0x3E1001 + 256 * j
/-- 3E10h.02 FS_SLEW (RWS, 10/R241). -/
def fsSlew (j : Nat) : Key := 0x3E1002 + 256 * j
/-- 3E10h.03 FS_OT_MODE (RWS, 10/R241). -/
def fsOtMode (j : Nat) : Key := 0x3E1003 + 256 * j
/-- 3E10h.04 FS_RESTART_MAX (RWS, 10/R241). -/
def fsRestartMax (j : Nat) : Key := 0x3E1004 + 256 * j
/-- 3E10h.05 FS_LIMIT_US (RWS, 10/R241). -/
def fsLimitUs (j : Nat) : Key := 0x3E1005 + 256 * j
/-- 3E10h.06 FS_OL_ON_MA (RWS, 10/R241). -/
def fsOlOnMa (j : Nat) : Key := 0x3E1006 + 256 * j
/-- 3E10h.07 FS_OFF_DIAG (RWS, 10/R241). -/
def fsOffDiag (j : Nat) : Key := 0x3E1007 + 256 * j
/-- 3E10h.08 FS_RESTART_HOLD (RWS, 10/R241). -/
def fsRestartHold (j : Nat) : Key := 0x3E1008 + 256 * j
/-- 3E10h.10 FS_CMD (RW, 10/R241). -/
def fsCmd (j : Nat) : Key := 0x3E1010 + 256 * j
/-- 3E10h.11 FS_STATE (RO, 10/R241). -/
def fsState (j : Nat) : Key := 0x3E1011 + 256 * j
/-- 3E10h.12 FS_I (RO, 10/R241). -/
def fsI (j : Nat) : Key := 0x3E1012 + 256 * j
/-- 3E10h.13 FS_V (RO, 10/R241). -/
def fsV (j : Nat) : Key := 0x3E1013 + 256 * j
/-- 3E10h.14 FS_FAULT (RO, 10/R241). -/
def fsFault (j : Nat) : Key := 0x3E1014 + 256 * j
/-- 3E10h.15 FS_TJ (RO, 10/R241). -/
def fsTj (j : Nat) : Key := 0x3E1015 + 256 * j
/-- 3E10h.16 FS_RESTARTS (RO, 10/R241). -/
def fsRestarts (j : Nat) : Key := 0x3E1016 + 256 * j
/-- 3E10h.17 FS_CLEAR (WO, 10/R241). -/
def fsClear (j : Nat) : Key := 0x3E1017 + 256 * j
/-- 3E10h.18 FS_OWNER (RO, 10/R241). -/
def fsOwner (j : Nat) : Key := 0x3E1018 + 256 * j
/-- 3F00h.01 BAT_DIS_W (RO, 11/R257). -/
def batDisW : Key := 0x3F0001
/-- 3F00h.02 BAT_CHG_W (RO, 11/R257). -/
def batChgW : Key := 0x3F0002
/-- 3F00h.03 BAT_EVENT_QUEUE (RWS, 11/R257). -/
def batEventQueue : Key := 0x3F0003
/-- 3F00h.04 EST_OVERRUNS (RO, 11/R257). -/
def estOverruns : Key := 0x3F0004
/-- 3F10h.01 BS_ID_MODE (RWS, 11/R257). -/
def bsIdMode (s : Nat) : Key := 0x3F1001 + 256 * s
/-- 3F10h.02 BS_C_NOM (RWS, 11/R257). -/
def bsCNom (s : Nat) : Key := 0x3F1002 + 256 * s
/-- 3F10h.03 BS_SOC_MIN (RWS, 11/R257). -/
def bsSocMin (s : Nat) : Key := 0x3F1003 + 256 * s
/-- 3F10h.04 BS_SOC_MAX (RWS, 11/R257). -/
def bsSocMax (s : Nat) : Key := 0x3F1004 + 256 * s
/-- 3F10h.05 BS_P_DIS_MAX (RWS, 11/R257). -/
def bsPDisMax (s : Nat) : Key := 0x3F1005 + 256 * s
/-- 3F10h.06 BS_P_CHG_MAX (RWS, 11/R257). -/
def bsPChgMax (s : Nat) : Key := 0x3F1006 + 256 * s
/-- 3F10h.07 BS_V_FULL (RWS, 11/R257). -/
def bsVFull (s : Nat) : Key := 0x3F1007 + 256 * s
/-- 3F10h.08 BS_I_FULL (RWS, 11/R257). -/
def bsIFull (s : Nat) : Key := 0x3F1008 + 256 * s
/-- 3F10h.09 BS_V_EMPTY (RWS, 11/R257). -/
def bsVEmpty (s : Nat) : Key := 0x3F1009 + 256 * s
/-- 3F10h.0A BS_TEMP_CH (RWS, 11/R257). -/
def bsTempCh (s : Nat) : Key := 0x3F100A + 256 * s
/-- 3F10h.0B BS_T_DIS_LO (RWS, 11/R257). -/
def bsTDisLo (s : Nat) : Key := 0x3F100B + 256 * s
/-- 3F10h.0C BS_T_DIS_HI (RWS, 11/R257). -/
def bsTDisHi (s : Nat) : Key := 0x3F100C + 256 * s
/-- 3F10h.0D BS_T_CHG_LO (RWS, 11/R257). -/
def bsTChgLo (s : Nat) : Key := 0x3F100D + 256 * s
/-- 3F10h.0E BS_T_CHG_HI (RWS, 11/R257). -/
def bsTChgHi (s : Nat) : Key := 0x3F100E + 256 * s
/-- 3F10h.0F BS_OCV_UNC (RWS, 11/R257). -/
def bsOcvUnc (s : Nat) : Key := 0x3F100F + 256 * s
/-- 3F10h.10 BS_EDGE_UNC (RWS, 11/R257). -/
def bsEdgeUnc (s : Nat) : Key := 0x3F1010 + 256 * s
/-- 3F10h.11 BS_CC_ERR_PPM (RWS, 11/R257). -/
def bsCcErrPpm (s : Nat) : Key := 0x3F1011 + 256 * s
/-- 3F10h.12 BS_OFF_UNC (RWS, 11/R257). -/
def bsOffUnc (s : Nat) : Key := 0x3F1012 + 256 * s
/-- 3F30h.01–.0B OCV (RWS, 11/R257). -/
def ocv (s j : Nat) : Key := 0x3F3001 + 256 * s + j
/-- 3F50h.01 BS_STATE (RO, 11/R257). -/
def bsState (s : Nat) : Key := 0x3F5001 + 256 * s
/-- 3F50h.02 BS_ID_CODE (RO, 11/R257). -/
def bsIdCode (s : Nat) : Key := 0x3F5002 + 256 * s
/-- 3F50h.03 BS_I (RO, 11/R257). -/
def bsI (s : Nat) : Key := 0x3F5003 + 256 * s
/-- 3F50h.04 BS_V (RO, 11/R257). -/
def bsV (s : Nat) : Key := 0x3F5004 + 256 * s
/-- 3F50h.05 BS_T (RO, 11/R257). -/
def bsT (s : Nat) : Key := 0x3F5005 + 256 * s
/-- 3F50h.06 BS_SOC (RO, 11/R257). -/
def bsSoc (s : Nat) : Key := 0x3F5006 + 256 * s
/-- 3F50h.07 BS_SOC_UNC (RO, 11/R257). -/
def bsSocUnc (s : Nat) : Key := 0x3F5007 + 256 * s
/-- 3F50h.08 BS_C_IN_USE (RO, 11/R257). -/
def bsCInUse (s : Nat) : Key := 0x3F5008 + 256 * s
/-- 3F50h.09 BS_C_LEARNED (RO, 11/R257). -/
def bsCLearned (s : Nat) : Key := 0x3F5009 + 256 * s
/-- 3F50h.0A BS_DIS_CAP_W (RO, 11/R257). -/
def bsDisCapW (s : Nat) : Key := 0x3F500A + 256 * s
/-- 3F50h.0B BS_CHG_CAP_W (RO, 11/R257). -/
def bsChgCapW (s : Nat) : Key := 0x3F500B + 256 * s
/-- 3F50h.0C BS_FLAGS (RO, 11/R257). -/
def bsFlags (s : Nat) : Key := 0x3F500C + 256 * s
/-- 3F50h.0D BS_SINCE_REST_S (RO, 11/R257). -/
def bsSinceRestS (s : Nat) : Key := 0x3F500D + 256 * s
/-- 3F50h.0E BS_THRU (RO, 11/R257). -/
def bsThru (s : Nat) : Key := 0x3F500E + 256 * s
/-- 3F50h.0F BS_LEARN_Q (RO, 11/R257). -/
def bsLearnQ (s : Nat) : Key := 0x3F500F + 256 * s
/-- 3F50h.10 BS_LEARN_COUNT (RO, 11/R257). -/
def bsLearnCount (s : Nat) : Key := 0x3F5010 + 256 * s
/-- 3F50h.11 BS_SWAPS (RO, 11/R257). -/
def bsSwaps (s : Nat) : Key := 0x3F5011 + 256 * s
/-- 3F50h.12 BS_RATE (RO, 11/R257). -/
def bsRate (s : Nat) : Key := 0x3F5012 + 256 * s
/-- 3F80h.01 BAT_STRING (RWS, 11/R257). -/
def batString (m : Nat) : Key := 0x3F8001 + 256 * m
/-- 4000h.02 VL_EVENT_QUEUE (RWS, 12/R275). -/
def vlEventQueue : Key := 0x400002
/-- 4000h.03 MAC_BASE (CONST, 12/R275). -/
def macBase : Key := 0x400003
/-- 4000h.04 SECC_TCP_PORT (RWS, 12/R275). -/
def seccTcpPort : Key := 0x400004
/-- 4010h.01 OUTLET_TYPE (RWS, 12/R275). -/
def outletType (k : Nat) : Key := 0x401001 + 256 * k
/-- 4010h.02 MODEM_SEL (RWS, 12/R275). -/
def modemSel (k : Nat) : Key := 0x401002 + 256 * k
/-- 4010h.03 BPT_ENABLE (RWS, 12/R275). -/
def bptEnable (k : Nat) : Key := 0x401003 + 256 * k
/-- 4010h.04 CONTROL_MODES (RWS, 12/R275). -/
def controlModes (k : Nat) : Key := 0x401004 + 256 * k
/-- 4010h.05 TLS_SLOT (RWS, 12/R275). -/
def tlsSlot (k : Nat) : Key := 0x401005 + 256 * k
/-- 4010h.06 MSG_TIMEOUT_LOOP_US (RWS, 12/R275). -/
def msgTimeoutLoopUs (k : Nat) : Key := 0x401006 + 256 * k
/-- 4010h.07 MSG_TIMEOUT_OTHER_US (RWS, 12/R275). -/
def msgTimeoutOtherUs (k : Nat) : Key := 0x401007 + 256 * k
/-- 4010h.08 SEQ_TIMEOUT_US (RWS, 12/R275). -/
def seqTimeoutUs (k : Nat) : Key := 0x401008 + 256 * k
/-- 4010h.09 ID_FILTER_US (RWS, 12/R275). -/
def idFilterUs (k : Nat) : Key := 0x401009 + 256 * k
/-- 4010h.0A UNPLUG_FILTER_US (RWS, 12/R275). -/
def unplugFilterUs (k : Nat) : Key := 0x40100A + 256 * k
/-- 4010h.0B TH_AB (RWS, 12/R275). -/
def thAb (k : Nat) : Key := 0x40100B + 256 * k
/-- 4010h.0C TH_BC (RWS, 12/R275). -/
def thBc (k : Nat) : Key := 0x40100C + 256 * k
/-- 4010h.0D TH_CD (RWS, 12/R275). -/
def thCd (k : Nat) : Key := 0x40100D + 256 * k
/-- 4010h.0E TH_DE (RWS, 12/R275). -/
def thDe (k : Nat) : Key := 0x40100E + 256 * k
/-- 4010h.0F TH_EF (RWS, 12/R275). -/
def thEf (k : Nat) : Key := 0x40100F + 256 * k
/-- 4010h.10 CP_DUTY (RWS, 12/R275). -/
def cpDuty (k : Nat) : Key := 0x401010 + 256 * k
/-- 4010h.11 SLAC_ATTEN_MAX (RWS, 12/R275). -/
def slacAttenMax (k : Nat) : Key := 0x401011 + 256 * k
/-- 4010h.12 RENEG_DELAY_US (RWS, 12/R275). -/
def renegDelayUs (k : Nat) : Key := 0x401012 + 256 * k
/-- 4040h.01 VL_STATE (RO, 12/R275). -/
def vlState (k : Nat) : Key := 0x404001 + 256 * k
/-- 4040h.02 PILOT_STATE (RO, 12/R275). -/
def pilotState (k : Nat) : Key := 0x404002 + 256 * k
/-- 4040h.03 PILOT_HIGH_MV (RO, 12/R275). -/
def pilotHighMv (k : Nat) : Key := 0x404003 + 256 * k
/-- 4040h.04 PILOT_LOW_MV (RO, 12/R275). -/
def pilotLowMv (k : Nat) : Key := 0x404004 + 256 * k
/-- 4040h.05 PROTOCOL (RO, 12/R275). -/
def protocol (k : Nat) : Key := 0x404005 + 256 * k
/-- 4040h.06 CONTROL_MODE (RO, 12/R275). -/
def controlMode (k : Nat) : Key := 0x404006 + 256 * k
/-- 4040h.07 SESSION_ID (RO, 12/R275). -/
def sessionId (k : Nat) : Key := 0x404007 + 256 * k
/-- 4040h.08 EV_MAX_V (RO, 12/R275). -/
def evMaxV (k : Nat) : Key := 0x404008 + 256 * k
/-- 4040h.09 EV_MAX_I (RO, 12/R275). -/
def evMaxI (k : Nat) : Key := 0x404009 + 256 * k
/-- 4040h.0A EV_MIN_I (RO, 12/R275). -/
def evMinI (k : Nat) : Key := 0x40400A + 256 * k
/-- 4040h.0B EV_MAX_DIS_I (RO, 12/R275). -/
def evMaxDisI (k : Nat) : Key := 0x40400B + 256 * k
/-- 4040h.0C LAST_STATED_I (RO, 12/R275). -/
def lastStatedI (k : Nat) : Key := 0x40400C + 256 * k
/-- 4040h.0D LINK_FAULT (RO, 12/R275). -/
def linkFault (k : Nat) : Key := 0x40400D + 256 * k
/-- 4040h.0E MSG_RX (RO, 12/R275). -/
def msgRx (k : Nat) : Key := 0x40400E + 256 * k
/-- 4040h.0F EVCC_ID (RO, 12/R275). -/
def evccId (k : Nat) : Key := 0x40400F + 256 * k
/-- 4080h.01 MDM_SPI_HZ (RWS, 12/R275). -/
def mdmSpiHz (p : Nat) : Key := 0x408001 + 256 * p
/-- 4080h.02 MDM0_STATE (RO, 12/R275). -/
def mdm0State (p : Nat) : Key := 0x408002 + 256 * p
/-- 4080h.03 MDM1_STATE (RO, 12/R275). -/
def mdm1State (p : Nat) : Key := 0x408003 + 256 * p
/-- 4080h.04 MDM_CRC_ERR (RO, 12/R275). -/
def mdmCrcErr (p : Nat) : Key := 0x408004 + 256 * p
/-- 4400h.01 CAN_ENABLE (RWS, 13/R291). -/
def canEnable (p : Nat) : Key := 0x440001 + 256 * p
/-- 4400h.02 CAN_MODE (RWS, 13/R291). -/
def canMode (p : Nat) : Key := 0x440002 + 256 * p
/-- 4400h.03 NBRP (RWS, 13/R291). -/
def nbrp (p : Nat) : Key := 0x440003 + 256 * p
/-- 4400h.04 NTSEG1 (RWS, 13/R291). -/
def ntseg1 (p : Nat) : Key := 0x440004 + 256 * p
/-- 4400h.05 NTSEG2 (RWS, 13/R291). -/
def ntseg2 (p : Nat) : Key := 0x440005 + 256 * p
/-- 4400h.06 NSJW (RWS, 13/R291). -/
def nsjw (p : Nat) : Key := 0x440006 + 256 * p
/-- 4400h.07 DBRP (RWS, 13/R291). -/
def dbrp (p : Nat) : Key := 0x440007 + 256 * p
/-- 4400h.08 DTSEG1 (RWS, 13/R291). -/
def dtseg1 (p : Nat) : Key := 0x440008 + 256 * p
/-- 4400h.09 DTSEG2 (RWS, 13/R291). -/
def dtseg2 (p : Nat) : Key := 0x440009 + 256 * p
/-- 4400h.0A DSJW (RWS, 13/R291). -/
def dsjw (p : Nat) : Key := 0x44000A + 256 * p
/-- 4400h.0B TDC_MODE (RWS, 13/R291). -/
def tdcMode (p : Nat) : Key := 0x44000B + 256 * p
/-- 4400h.0C TDC_OFFSET (RWS, 13/R291). -/
def tdcOffset (p : Nat) : Key := 0x44000C + 256 * p
/-- 4400h.0D TX_ORDER (RWS, 13/R291). -/
def txOrder (p : Nat) : Key := 0x44000D + 256 * p
/-- 4400h.0E BUSOFF_AUTO (RWS, 13/R291). -/
def busoffAuto (p : Nat) : Key := 0x44000E + 256 * p
/-- 4400h.0F TX_GUARD_US (RWS, 13/R291). -/
def txGuardUs (p : Nat) : Key := 0x44000F + 256 * p
/-- 4400h.10 WAKE_MODE (RWS, 13/R291). -/
def wakeMode (p : Nat) : Key := 0x440010 + 256 * p
/-- 4400h.11 WAKE_FILTER_US (RWS, 13/R291). -/
def wakeFilterUs (p : Nat) : Key := 0x440011 + 256 * p
/-- 4400h.12 WAKE_ID (RWS, 13/R291). -/
def wakeId (p : Nat) : Key := 0x440012 + 256 * p
/-- 4400h.13 WAKE_ID_MASK (RWS, 13/R291). -/
def wakeIdMask (p : Nat) : Key := 0x440013 + 256 * p
/-- 4400h.14 WAKE_DATA (RWS, 13/R291). -/
def wakeData (p : Nat) : Key := 0x440014 + 256 * p
/-- 4400h.15 WAKE_DATA_MASK (RWS, 13/R291). -/
def wakeDataMask (p : Nat) : Key := 0x440015 + 256 * p
/-- 4400h.16 CAN_EVENT_QUEUE (RWS, 13/R291). -/
def canEventQueue (p : Nat) : Key := 0x440016 + 256 * p
/-- 4400h.17 SLEEP_REQ (WO, 13/R291). -/
def sleepReq (p : Nat) : Key := 0x440017 + 256 * p
/-- 4400h.18 WAKE_REQ (WO, 13/R291). -/
def wakeReq (p : Nat) : Key := 0x440018 + 256 * p
/-- 4404h.01 PORT_STATE (RO, 13/R291). -/
def portState (p : Nat) : Key := 0x440401 + 256 * p
/-- 4404h.02 TEC (RO, 13/R291). -/
def canTec (p : Nat) : Key := 0x440402 + 256 * p
/-- 4404h.03 REC (RO, 13/R291). -/
def canRec (p : Nat) : Key := 0x440403 + 256 * p
/-- 4404h.04 BUSOFF_COUNT (RO, 13/R291). -/
def busoffCount (p : Nat) : Key := 0x440404 + 256 * p
/-- 4404h.05 TX_OK (RO, 13/R291). -/
def txOk (p : Nat) : Key := 0x440405 + 256 * p
/-- 4404h.06 ARB_LOST (RO, 13/R291). -/
def arbLost (p : Nat) : Key := 0x440406 + 256 * p
/-- 4404h.07 TX_ERRORS (RO, 13/R291). -/
def txErrors (p : Nat) : Key := 0x440407 + 256 * p
/-- 4404h.08 RX_OK (RO, 13/R291). -/
def rxOk (p : Nat) : Key := 0x440408 + 256 * p
/-- 4404h.09 RX_NO_MATCH (RO, 13/R291). -/
def rxNoMatch (p : Nat) : Key := 0x440409 + 256 * p
/-- 4404h.0A RX_DROPPED_FULL (RO, 13/R291). -/
def rxDroppedFull (p : Nat) : Key := 0x44040A + 256 * p
/-- 4404h.0B LAST_ERROR (RO, 13/R291). -/
def lastError (p : Nat) : Key := 0x44040B + 256 * p
/-- 4404h.0C TDC_MEASURED (RO, 13/R291). -/
def tdcMeasured (p : Nat) : Key := 0x44040C + 256 * p
/-- 4404h.0D BUSOFF_RECOVER (WO, 13/R291). -/
def busoffRecover (p : Nat) : Key := 0x44040D + 256 * p
/-- 4404h.0E WAKE_COUNT (RO, 13/R291). -/
def wakeCount (p : Nat) : Key := 0x44040E + 256 * p
/-- 4404h.0F WAKE_CAUSE (RO, 13/R291). -/
def wakeCause (p : Nat) : Key := 0x44040F + 256 * p
/-- 4408h.01 TXB_ID (RW, 13/R291). -/
def txbId (x : Nat) : Key := 0x440801 + 256 * x
/-- 4408h.02 TXB_FLAGS (RW, 13/R291). -/
def txbFlags (x : Nat) : Key := 0x440802 + 256 * x
/-- 4408h.03 TXB_LEN (RW, 13/R291). -/
def txbLen (x : Nat) : Key := 0x440803 + 256 * x
/-- 4408h.04 TXB_DATA (RW, 13/R291). -/
def txbData (x : Nat) : Key := 0x440804 + 256 * x
/-- 4408h.05 TXB_TIME (RW, 13/R291). -/
def txbTime (x : Nat) : Key := 0x440805 + 256 * x
/-- 4408h.06 TXB_REQUEST (WO, 13/R291). -/
def txbRequest (x : Nat) : Key := 0x440806 + 256 * x
/-- 4408h.07 TXB_ABORT (WO, 13/R291). -/
def txbAbort (x : Nat) : Key := 0x440807 + 256 * x
/-- 4408h.08 TXB_STATE (RO, 13/R291). -/
def txbState (x : Nat) : Key := 0x440808 + 256 * x
/-- 4408h.09 TXB_SENT_TIME (RO, 13/R291). -/
def txbSentTime (x : Nat) : Key := 0x440809 + 256 * x
/-- 4408h.0A TXB_ATTEMPTS (RO, 13/R291). -/
def txbAttempts (x : Nat) : Key := 0x44080A + 256 * x
/-- 4420h.01 FLT_ENABLE (RWS, 13/R291). -/
def fltEnable (x : Nat) : Key := 0x442001 + 256 * x
/-- 4420h.02 FLT_ID (RWS, 13/R291). -/
def fltId (x : Nat) : Key := 0x442002 + 256 * x
/-- 4420h.03 FLT_MASK (RWS, 13/R291). -/
def fltMask (x : Nat) : Key := 0x442003 + 256 * x
/-- 4420h.04 FLT_FORMAT (RWS, 13/R291). -/
def fltFormat (x : Nat) : Key := 0x442004 + 256 * x
/-- 4420h.05 FLT_QUEUE (RWS, 13/R291). -/
def fltQueue (x : Nat) : Key := 0x442005 + 256 * x
/-- 4420h.06 FLT_HITS (RO, 13/R291). -/
def fltHits (x : Nat) : Key := 0x442006 + 256 * x
/-- 44E0h.01 FE_PORT (RWS, 13/R291). -/
def fePort : Key := 0x44E001
/-- 44E0h.02 FE_ID_BASE (RWS, 13/R291). -/
def feIdBase : Key := 0x44E002
/-- 44E0h.03 FE_PERIOD_FRAMES (RWS, 13/R291). -/
def fePeriodFrames : Key := 0x44E003
/-- 44E0h.04 FE_TIMEOUT_FRAMES (RWS, 13/R291). -/
def feTimeoutFrames : Key := 0x44E004
/-- 44E8h.01 FE_ENABLE (RWS, 13/R291). -/
def feEnable (r : Nat) : Key := 0x44E801 + 256 * r
/-- 44E8h.02 FE_MODULES (RWS, 13/R291). -/
def feModules (r : Nat) : Key := 0x44E802 + 256 * r
/-- 44E8h.03 FE_VDC_SET (RWS, 13/R291). -/
def feVdcSet (r : Nat) : Key := 0x44E803 + 256 * r
/-- 44E8h.04 FE_P_LIM (RWS, 13/R291). -/
def fePLim (r : Nat) : Key := 0x44E804 + 256 * r
/-- 44E8h.05 FE_Q_SET (RWS, 13/R291). -/
def feQSet (r : Nat) : Key := 0x44E805 + 256 * r
/-- 44E8h.06 FE_RUN (RWS, 13/R291). -/
def feRun (r : Nat) : Key := 0x44E806 + 256 * r
/-- 44E8h.07 FE_STATE (RO, 13/R291). -/
def feState (r : Nat) : Key := 0x44E807 + 256 * r
/-- 44E8h.08 FE_VDC (RO, 13/R291). -/
def feVdc (r : Nat) : Key := 0x44E808 + 256 * r
/-- 44E8h.09 FE_IDC (RO, 13/R291). -/
def feIdc (r : Nat) : Key := 0x44E809 + 256 * r
/-- 44E8h.0A FE_PAC (RO, 13/R291). -/
def fePac (r : Nat) : Key := 0x44E80A + 256 * r
/-- 44E8h.0B FE_FAULT (RO, 13/R291). -/
def feFault (r : Nat) : Key := 0x44E80B + 256 * r
/-- 44E8h.0C FE_BAD_REPORTS (RO, 13/R291). -/
def feBadReports (r : Nat) : Key := 0x44E80C + 256 * r
/-- 44E8h.0D FE_WRITE_RESET (WO, 13/R291). -/
def feWriteReset (r : Nat) : Key := 0x44E80D + 256 * r
/-- 4500h.01 MPL_MODE (RWS, 14/R306). -/
def mplMode : Key := 0x450001
/-- 4500h.02 MPL_PHASES (RWS, 14/R306). -/
def mplPhases : Key := 0x450002
/-- 4500h.03 MPL_PHASE_SEL (RWS, 14/R306). -/
def mplPhaseSel : Key := 0x450003
/-- 4500h.04 TX_DELAY_US (RWS, 14/R306). -/
def txDelayUs : Key := 0x450004
/-- 4500h.05 TX_WIDTH_US (RWS, 14/R306). -/
def txWidthUs : Key := 0x450005
/-- 4500h.06 RX_THRESH (RWS, 14/R306). -/
def rxThresh : Key := 0x450006
/-- 4500h.07 ERASE_LEVEL (RWS, 14/R306). -/
def eraseLevel : Key := 0x450007
/-- 4500h.08 MPL_RETRIES (RWS, 14/R306). -/
def mplRetries : Key := 0x450008
/-- 4500h.09 MISS_LIMIT (RWS, 14/R306). -/
def missLimit : Key := 0x450009
/-- 4500h.0A MPL_RX_QUEUE (RWS, 14/R306). -/
def mplRxQueue : Key := 0x45000A
/-- 4500h.0B MPL_EVENT_QUEUE (RWS, 14/R306). -/
def mplEventQueue : Key := 0x45000B
/-- 4500h.0C BCAST_REQ (WO, 14/R306). -/
def bcastReq : Key := 0x45000C
/-- 4500h.0D BCAST_LEN (RW, 14/R306). -/
def bcastLen : Key := 0x45000D
/-- 4500h.0E BCAST_DATA (RW, 14/R306). -/
def bcastData : Key := 0x45000E
/-- 4501h.01 MPL_STATE (RO, 14/R306). -/
def mplState : Key := 0x450101
/-- 4501h.02 LINE_FREQ (RO, 14/R306). -/
def lineFreq : Key := 0x450102
/-- 4501h.03 FRAMES_TX (RO, 14/R306). -/
def framesTx : Key := 0x450103
/-- 4501h.04 FRAMES_OK (RO, 14/R306). -/
def framesOk : Key := 0x450104
/-- 4501h.05 FRAMES_LOST (RO, 14/R306). -/
def framesLost : Key := 0x450105
/-- 4501h.06 NO_REPLY (RO, 14/R306). -/
def noReply : Key := 0x450106
/-- 4501h.07 FRAMES_CORRECTED (RO, 14/R306). -/
def framesCorrected : Key := 0x450107
/-- 4501h.08 FRAMES_DROPPED (RO, 14/R306). -/
def framesDropped : Key := 0x450108
/-- 4501h.09 POLL_ROUND (RO, 14/R306). -/
def pollRound : Key := 0x450109
/-- 4540h.01 ST_ADDR (RWS, 14/R306). -/
def stAddr (s : Nat) : Key := 0x454001 + 256 * s
/-- 4540h.02 ST_TX_LEN (RW, 14/R306). -/
def stTxLen (s : Nat) : Key := 0x454002 + 256 * s
/-- 4540h.03 ST_TX_DATA (RW, 14/R306). -/
def stTxData (s : Nat) : Key := 0x454003 + 256 * s
/-- 4540h.10 ST_STATE (RO, 14/R306). -/
def mplStState (s : Nat) : Key := 0x454010 + 256 * s
/-- 4540h.11 ST_PHASE (RO, 14/R306). -/
def stPhase (s : Nat) : Key := 0x454011 + 256 * s
/-- 4540h.12 ST_FAILS (RO, 14/R306). -/
def stFails (s : Nat) : Key := 0x454012 + 256 * s
/-- 4540h.13 ST_LAST_FRAME (RO, 14/R306). -/
def stLastFrame (s : Nat) : Key := 0x454013 + 256 * s
/-- 4540h.14 ST_LOST (RO, 14/R306). -/
def stLost (s : Nat) : Key := 0x454014 + 256 * s
/-- 4600h.01 PAIR_ENABLE (RWS, 15/R330). -/
def pairEnable : Key := 0x460001
/-- 4600h.02 UNIT_ID (RWS, 15/R330). -/
def unitId : Key := 0x460002
/-- 4600h.03 REJOIN (WO, 15/R330). -/
def rejoin : Key := 0x460003
/-- 4600h.04 SWAP_REQ (WO, 15/R330). -/
def swapReq : Key := 0x460004
/-- 4600h.05 SWAP_DAILY_S (RWS, 15/R330). -/
def swapDailyS : Key := 0x460005
/-- 4600h.06 SWAP_IDLE_ONLY (RWS, 15/R330). -/
def swapIdleOnly : Key := 0x460006
/-- 4600h.07 PAIR_EVENT_QUEUE (RWS, 15/R330). -/
def pairEventQueue : Key := 0x460007
/-- 4600h.08 ALARM_CLEAR (WO, 15/R330). -/
def alarmClear : Key := 0x460008
/-- 4601h.01 PAIR_ROLE (RO, 15/R330). -/
def pairRole : Key := 0x460101
/-- 4601h.02 PARTNER_ROLE (RO, 15/R330). -/
def partnerRole : Key := 0x460102
/-- 4601h.03 PAIR_ALARM (RO, 15/R330). -/
def pairAlarm : Key := 0x460103
/-- 4601h.04 SEL_FB (RO, 15/R330). -/
def selFb : Key := 0x460104
/-- 4601h.05 LINK_STATE (RO, 15/R330). -/
def pairLinkState : Key := 0x460105
/-- 4601h.06 LANE_ERR_A (RO, 15/R330). -/
def laneErrA : Key := 0x460106
/-- 4601h.07 LANE_ERR_B (RO, 15/R330). -/
def laneErrB : Key := 0x460107
/-- 4601h.08 MISMATCH_COUNT (RO, 15/R330). -/
def mismatchCount : Key := 0x460108
/-- 4601h.09 MISMATCH_EVENTS (RO, 15/R330). -/
def mismatchEvents : Key := 0x460109
/-- 4601h.0A SUM_MISMATCHES (RO, 15/R330). -/
def sumMismatches : Key := 0x46010A
/-- 4601h.0B TAKEOVERS (RO, 15/R330). -/
def takeovers : Key := 0x46010B
/-- 4601h.0C TAKEOVER_NS (RO, 15/R330). -/
def takeoverNs : Key := 0x46010C
/-- 4601h.0D TAKEOVER_FRAME (RO, 15/R330). -/
def takeoverFrame : Key := 0x46010D
/-- 4601h.0E SWAPS (RO, 15/R330). -/
def swaps : Key := 0x46010E
/-- 4601h.0F SWAP_RESULT (RO, 15/R330). -/
def swapResult : Key := 0x46010F
/-- 4601h.10 STATE_SUM (RO, 15/R330). -/
def stateSum : Key := 0x460110
/-- 4602h.01 HEALTH (RO, 15/R330). -/
def health : Key := 0x460201
/-- 4602h.02 ECC_CORRECTED (RO, 15/R330). -/
def eccCorrected : Key := 0x460202
/-- 4602h.03 SEGMENTS_PASSED (RO, 15/R330). -/
def segmentsPassed : Key := 0x460203
/-- 4602h.04 RX_DIFF (RO, 15/R330). -/
def rxDiff : Key := 0x460204
/-- 4602h.05 UNDRIVEN_S (RO, 15/R330). -/
def undrivenS : Key := 0x460205
/-- 4800h.01 SF_STATE (RO, 16/R347). -/
def sfState : Key := 0x480001
/-- 4800h.02 TRIP_CAUSE (RO, 16/R347). -/
def tripCause : Key := 0x480002
/-- 4800h.03 SCO_CUT (RO, 16/R347). -/
def scoCut : Key := 0x480003
/-- 4800h.04 SCO_READ (RO, 16/R347). -/
def scoRead : Key := 0x480004
/-- 4800h.05 SF_FAULT_CODE (RO, 16/R347). -/
def sfFaultCode : Key := 0x480005
/-- 4800h.06 RESET_STATE (RO, 16/R347). -/
def resetState : Key := 0x480006
/-- 4800h.07 T_CYC_US (RO, 16/R347). -/
def tCycUs : Key := 0x480007
/-- 4800h.08 RESP_ESTOP_US (RO, 16/R347). -/
def respEstopUs : Key := 0x480008
/-- 4800h.09 RESP_GSTOP_US (RO, 16/R347). -/
def respGstopUs : Key := 0x480009
/-- 4800h.0A RESP_OV_US (RO, 16/R347). -/
def respOvUs : Key := 0x48000A
/-- 4800h.0B RESP_IMD_US (RO, 16/R347). -/
def respImdUs : Key := 0x48000B
/-- 4800h.0C SAFE_CRC (RO, 16/R347). -/
def safeCrc : Key := 0x48000C
/-- 4800h.0D TRIP_COUNT (RO, 16/R347). -/
def sfTripCount : Key := 0x48000D
/-- 4800h.0E SF_DISAGREE (RO, 16/R347). -/
def sfDisagree : Key := 0x48000E
/-- 4800h.10 TP_PERIOD_US (RWL, 16/R347). -/
def tpPeriodUs : Key := 0x480010
/-- 4800h.11 TP_WIDTH_US (RWL, 16/R347). -/
def tpWidthUs : Key := 0x480011
/-- 4800h.12 CONT_FB_US (RWL, 16/R347). -/
def contFbUs : Key := 0x480012
/-- 4800h.13 CONTACT_FORCE_US (RWL, 16/R347). -/
def contactForceUs : Key := 0x480013
/-- 4800h.14 SF_EVENT_QUEUE (RWL, 16/R347). -/
def sfEventQueue : Key := 0x480014
/-- 4810h.01 SI_FUNC (RWL, 16/R347). -/
def siFunc (i : Nat) : Key := 0x481001 + 256 * i
/-- 4810h.02 SI_TP (RWL, 16/R347). -/
def siTp (i : Nat) : Key := 0x481002 + 256 * i
/-- 4810h.03 SI_FILT_US (RWL, 16/R347). -/
def siFiltUs (i : Nat) : Key := 0x481003 + 256 * i
/-- 4810h.04 SI_PAIR (RWL, 16/R347). -/
def siPair (i : Nat) : Key := 0x481004 + 256 * i
/-- 4810h.05 SI_DISC_US (RWL, 16/R347). -/
def siDiscUs (i : Nat) : Key := 0x481005 + 256 * i
/-- 4810h.06 SI_SCO_MASK (RWL, 16/R347). -/
def siScoMask (i : Nat) : Key := 0x481006 + 256 * i
/-- 4810h.07 SI_OUT_MASK (RWL, 16/R347). -/
def siOutMask (i : Nat) : Key := 0x481007 + 256 * i
/-- 4810h.10 SI_STATE (RO, 16/R347). -/
def siState (i : Nat) : Key := 0x481010 + 256 * i
/-- 4840h.01 OV_LIMIT (RWL, 16/R347). -/
def ovLimit (k : Nat) : Key := 0x484001 + 256 * k
/-- 4840h.02 OV_FILT_US (RWL, 16/R347). -/
def ovFiltUs (k : Nat) : Key := 0x484002 + 256 * k
/-- 4840h.03 OUT_SCO_MASK (RWL, 16/R347). -/
def outScoMask (k : Nat) : Key := 0x484003 + 256 * k
/-- 4840h.04 IMD_MODE (RWL, 16/R347). -/
def imdMode (k : Nat) : Key := 0x484004 + 256 * k
/-- 4840h.05 IMD_ALARM (RWL, 16/R347). -/
def imdAlarm (k : Nat) : Key := 0x484005 + 256 * k
/-- 4840h.06 IMD_FILT_US (RWL, 16/R347). -/
def imdFiltUs (k : Nat) : Key := 0x484006 + 256 * k
/-- 4840h.07 HOTSPOT_EN (RWL, 16/R347). -/
def hotspotEn (k : Nat) : Key := 0x484007 + 256 * k
/-- 4840h.08 SF_V_FS (RWL, 16/R347). -/
def sfVFs (k : Nat) : Key := 0x484008 + 256 * k
/-- 4840h.10 IMD_R (RO, 16/R347). -/
def imdR (k : Nat) : Key := 0x484010 + 256 * k
/-- 4840h.11 IMD_STATE (RO, 16/R347). -/
def imdState (k : Nat) : Key := 0x484011 + 256 * k
/-- 4840h.12 OUT_LOCK (RO, 16/R347). -/
def outLock (k : Nat) : Key := 0x484012 + 256 * k
/-- 4840h.13 OUT_TRIP_CAUSE (RO, 16/R347). -/
def outTripCause (k : Nat) : Key := 0x484013 + 256 * k
/-- 4840h.14 SF_V_OUT (RO, 16/R347). -/
def sfVOut (k : Nat) : Key := 0x484014 + 256 * k
/-- 4A00h.01 VAULT_STATE (RO, 17/R361). -/
def vaultState : Key := 0x4A0001
/-- 4A00h.02 IMPORT_PUB (RO, 17/R361). -/
def importPub : Key := 0x4A0002
/-- 4A00h.03 TAMPER_EVENTS (RO, 17/R361). -/
def tamperEvents : Key := 0x4A0003
/-- 4A00h.04 UNWATCHED_COUNT (RO, 17/R361). -/
def unwatchedCount : Key := 0x4A0004
/-- 4A00h.05 UNWATCHED_S (RO, 17/R361). -/
def unwatchedS : Key := 0x4A0005
/-- 4A01h.01 CMD (WO, 17/R361). -/
def vaultCmd : Key := 0x4A0101
/-- 4A01h.02 SLOT (RW, 17/R361). -/
def vaultSlot : Key := 0x4A0102
/-- 4A01h.03 ATTR (RW, 17/R361). -/
def vaultAttr : Key := 0x4A0103
/-- 4A01h.04 KEY_TYPE (RW, 17/R361). -/
def vaultKeyType : Key := 0x4A0104
/-- 4A01h.05 DATA_LEN (RW, 17/R361). -/
def vaultLen : Key := 0x4A0105
/-- 4A01h.06 DATA (RW, 17/R361). -/
def vaultData : Key := 0x4A0106
/-- 4A01h.07 RESULT (RO, 17/R361). -/
def vaultResult : Key := 0x4A0107
/-- 4A02h.01 MEAS7_EXTEND (WO, 17/R361). -/
def meas7Extend : Key := 0x4A0201
/-- 4A10h.01 SLOT_ATTR (RO, 17/R361). -/
def slotAttr (s : Nat) : Key := 0x4A1001 + 256 * s
/-- 4A10h.02 SLOT_TYPE (RO, 17/R361). -/
def slotType (s : Nat) : Key := 0x4A1002 + 256 * s
/-- 4A10h.03 SLOT_PUB (RO, 17/R361). -/
def slotPub (s : Nat) : Key := 0x4A1003 + 256 * s
/-- 4A10h.04 SLOT_CERT (RO, 17/R361). -/
def slotCert (s : Nat) : Key := 0x4A1004 + 256 * s
/-- 4A10h.05 SLOT_STATE (RO, 17/R361). -/
def slotState (s : Nat) : Key := 0x4A1005 + 256 * s
/-- 4A10h.06 STAGE_STATE (RO, 17/R361). -/
def stageState (s : Nat) : Key := 0x4A1006 + 256 * s
/-- 4A10h.07 STAGE_PUB (RO, 17/R361). -/
def stagePub (s : Nat) : Key := 0x4A1007 + 256 * s
/-- 4A10h.08 SWAP_FRAME (RO, 17/R361). -/
def swapFrame (s : Nat) : Key := 0x4A1008 + 256 * s
/-- 4B10h.01 BLOB_STATE (RO, 17/R361). -/
def blobState (b : Nat) : Key := 0x4B1001 + 256 * b
/-- 4B10h.02 BLOB_PUB (RO, 17/R361). -/
def blobPub (b : Nat) : Key := 0x4B1002 + 256 * b
/-- 4B10h.03 BLOB_KEY_ID (RO, 17/R361). -/
def blobKeyId (b : Nat) : Key := 0x4B1003 + 256 * b
/-- 4B10h.04 BLOB_STAGE (RO, 17/R361). -/
def blobStage (b : Nat) : Key := 0x4B1004 + 256 * b
/-- 4B20h.01–.08 MEAS (RO, 17/R361). -/
def meas (j : Nat) : Key := 0x4B2001 + j
/-- 4B20h.09 IMAGE_SVN (RO, 17/R361). -/
def imageSvn : Key := 0x4B2009
/-- 4B20h.0A ROLLBACK_CTR (RO, 17/R361). -/
def rollbackCtr : Key := 0x4B200A
/-- 4B30h.01 LC_TARGET (WO, 17/R361). -/
def lcTarget : Key := 0x4B3001
/-- 4B30h.02 LC_CHALLENGE (RO, 17/R361). -/
def lcChallenge : Key := 0x4B3002
/-- 4B30h.03 LC_TOKEN (WO, 17/R361). -/
def lcToken : Key := 0x4B3003
/-- 4B30h.04 LC_RESULT (RO, 17/R361). -/
def lcResult : Key := 0x4B3004
/-- 4B30h.05 OWNER_ANCHOR (RWL, 17/R361). -/
def ownerAnchor : Key := 0x4B3005
/-- 4B30h.06 DEBUG_STATE (RO, 17/R361). -/
def debugState : Key := 0x4B3006
/-- 4B40h.01 UPD_CMD (WO, 17/R361). -/
def updCmd : Key := 0x4B4001
/-- 4B40h.02 UPD_LEN (RW, 17/R361). -/
def updLen : Key := 0x4B4002
/-- 4B40h.03 UPD_OFFSET (RW, 17/R361). -/
def updOffset : Key := 0x4B4003
/-- 4B40h.04 UPD_DATA (WO, 17/R361). -/
def updData : Key := 0x4B4004
/-- 4B40h.05 UPD_STATE (RO, 17/R361). -/
def updState : Key := 0x4B4005
/-- 4B40h.06 TRIAL_BOOTS (RO, 17/R361). -/
def trialBoots : Key := 0x4B4006
/-- 4B40h.07 IMAGE_A_VER (RO, 17/R361). -/
def imageAVer : Key := 0x4B4007
/-- 4B40h.08 IMAGE_B_VER (RO, 17/R361). -/
def imageBVer : Key := 0x4B4008
/-- 4C00h.01 FOLIO_WRITES (RO, 18/R377). -/
def folioWrites : Key := 0x4C0001
/-- 4C00h.02 FOLIO_DEFERRED (RO, 18/R377). -/
def folioDeferred : Key := 0x4C0002
/-- 4C00h.03 WRITE_FAILS (RO, 18/R377). -/
def writeFails : Key := 0x4C0003
/-- 4C00h.04 CAL_MISSING (RO, 18/R377). -/
def calMissing : Key := 0x4C0004
/-- 4C08h.01 REGION_STATE (RO, 18/R377). -/
def regionState (r : Nat) : Key := 0x4C0801 + 256 * r
/-- 4C08h.02 FOLIOS_DEFAULTED (RO, 18/R377). -/
def foliosDefaulted (r : Nat) : Key := 0x4C0802 + 256 * r
/-- 4C08h.03 LAST_WRITE_FRAME (RO, 18/R377). -/
def lastWriteFrame (r : Nat) : Key := 0x4C0803 + 256 * r
/-- 4C20h.01 TLM_QUEUE (RWS, 18/R377). -/
def tlmQueue : Key := 0x4C2001
/-- 4C20h.02 TLM_PERIOD (RWS, 18/R377). -/
def tlmPeriod : Key := 0x4C2002
/-- 4C20h.03–.0A TLM_OBJ (RWS, 18/R377). -/
def tlmObj (j : Nat) : Key := 0x4C2003 + j
/-- 4C40h.01 Q_CLASS (RWS, 18/R377). -/
def qClass (q : Nat) : Key := 0x4C4001 + 256 * q
/-- 4C40h.02 Q_COUNT (RO, 18/R377). -/
def qCount (q : Nat) : Key := 0x4C4002 + 256 * q
/-- 4C40h.03 Q_FLAGS (RO, 18/R377). -/
def qFlags (q : Nat) : Key := 0x4C4003 + 256 * q
/-- 4C40h.04 Q_PEEK (RO, 18/R377). -/
def qPeek (q : Nat) : Key := 0x4C4004 + 256 * q
/-- 4C40h.05 Q_CONSUME (WO, 18/R377). -/
def qConsume (q : Nat) : Key := 0x4C4005 + 256 * q
/-- 4C40h.06 Q_FLAG_CLEAR (WO, 18/R377). -/
def qFlagClear (q : Nat) : Key := 0x4C4006 + 256 * q
/-- 4C40h.07 Q_RESET (WO, 18/R377). -/
def qReset (q : Nat) : Key := 0x4C4007 + 256 * q
/-- 4C40h.08 Q_DROPPED (RO, 18/R377). -/
def qDropped (q : Nat) : Key := 0x4C4008 + 256 * q
/-- 4C40h.09 Q_ECC_CORR (RO, 18/R377). -/
def qEccCorr (q : Nat) : Key := 0x4C4009 + 256 * q
/-- 4C40h.0A Q_UNCORR_COUNT (RO, 18/R377). -/
def qUncorrCount (q : Nat) : Key := 0x4C400A + 256 * q
/-- 4C40h.0B Q_WRITTEN (RO, 18/R377). -/
def qWritten (q : Nat) : Key := 0x4C400B + 256 * q
/-- 4E00h.01 ST_REQ (WO, 19/R392). -/
def stReq : Key := 0x4E0001
/-- 4E00h.02 ST_STATE (RO, 19/R392). -/
def stocktakeState : Key := 0x4E0002
/-- 4E00h.03 ST_FAIL_MASK (RO, 19/R392). -/
def stFailMask : Key := 0x4E0003
/-- 4E00h.04 ST_EVENT_QUEUE (RWS, 19/R392). -/
def stEventQueue : Key := 0x4E0004
/-- 4E00h.05 SEG_SPACING_FRAMES (RWS, 19/R392). -/
def segSpacingFrames : Key := 0x4E0005
/-- 4E00h.06 SEG_ISLAND (RO, 19/R392). -/
def segIsland : Key := 0x4E0006
/-- 4E00h.07 SEG_PARTITION (RO, 19/R392). -/
def segPartition : Key := 0x4E0007
/-- 4E00h.08 SEG_FAILS (RO, 19/R392). -/
def segFails : Key := 0x4E0008
/-- 4E00h.09 ROTATIONS (RO, 19/R392). -/
def rotations : Key := 0x4E0009
/-- 4E00h.0A SEG_LAST_FAIL (RO, 19/R392). -/
def segLastFail : Key := 0x4E000A
/-- 4E10h.01 ST_RESULT (RO, 19/R392). -/
def stResult (i : Nat) : Key := 0x4E1001 + 256 * i
/-- 4E10h.02 ST_SIG (RO, 19/R392). -/
def stSig (i : Nat) : Key := 0x4E1002 + 256 * i
/-- 4E10h.03 ST_SIG_EXPECT (CONST, 19/R392). -/
def stSigExpect (i : Nat) : Key := 0x4E1003 + 256 * i
/-- 4E10h.04 ST_SEED (CONST, 19/R392). -/
def stSeed (i : Nat) : Key := 0x4E1004 + 256 * i
/-- 4E10h.05 ST_PATTERNS (CONST, 19/R392). -/
def stPatterns (i : Nat) : Key := 0x4E1005 + 256 * i
/-- 4E10h.06 ST_COVERAGE (CONST, 19/R392). -/
def stCoverage (i : Nat) : Key := 0x4E1006 + 256 * i
/-- 4E10h.07 ST_RUN_US (RO, 19/R392). -/
def stRunUs (i : Nat) : Key := 0x4E1007 + 256 * i
/-- 4E10h.08 ST_FRAME (RO, 19/R392). -/
def stFrame (i : Nat) : Key := 0x4E1008 + 256 * i
/-- 4E30h.01 INJ_PERMIT_S (RW, 19/R392). -/
def injPermitS : Key := 0x4E3001
/-- 4E30h.02 INJ_OUT_MASK (RW, 19/R392). -/
def injOutMask : Key := 0x4E3002
/-- 4E30h.03 INJ_CHALLENGE (RO, 19/R392). -/
def injChallenge : Key := 0x4E3003
/-- 4E30h.04 INJ_TOKEN (WO, 19/R392). -/
def injToken : Key := 0x4E3004
/-- 4E30h.05 INJ_PERMIT_STATE (RO, 19/R392). -/
def injPermitState : Key := 0x4E3005
/-- 4E30h.06 INJ_PERMIT_LEFT_S (RO, 19/R392). -/
def injPermitLeftS : Key := 0x4E3006
/-- 4E30h.07 INJ_RUNNING (RO, 19/R392). -/
def injRunning : Key := 0x4E3007
/-- 4E40h.01 INJ_ARG (RW, 19/R392). -/
def injArg (d : Nat) : Key := 0x4E4001 + 256 * d
/-- 4E40h.02 INJ_VALUE (RW, 19/R392). -/
def injValue (d : Nat) : Key := 0x4E4002 + 256 * d
/-- 4E40h.03 INJ_HOLD_US (RW, 19/R392). -/
def injHoldUs (d : Nat) : Key := 0x4E4003 + 256 * d
/-- 4E40h.04 INJ_START (WO, 19/R392). -/
def injStart (d : Nat) : Key := 0x4E4004 + 256 * d
/-- 4E40h.05 INJ_STOP (WO, 19/R392). -/
def injStop (d : Nat) : Key := 0x4E4005 + 256 * d
/-- 4E40h.06 INJ_STATE (RO, 19/R392). -/
def injState (d : Nat) : Key := 0x4E4006 + 256 * d
/-- 4E40h.07 INJ_REACTION (RO, 19/R392). -/
def injReaction (d : Nat) : Key := 0x4E4007 + 256 * d
/-- 4E40h.08 INJ_RESPONSE_US (RO, 19/R392). -/
def injResponseUs (d : Nat) : Key := 0x4E4008 + 256 * d
/-- 4E40h.09 INJ_COUNT (RO, 19/R392). -/
def injCount (d : Nat) : Key := 0x4E4009 + 256 * d
/-- 4E40h.0A INJ_FRAME (RO, 19/R392). -/
def injFrame (d : Nat) : Key := 0x4E400A + 256 * d

/-! Registers of the machine that the rules name without a catalogue index (indices from 10000h: no request reaches them). -/

/-- Time in ns since the model's start; CONTROL_SAMPLE adds a sample's 2,000 ns (R19). -/
def now : Key := 0x1000001
/-- Site time less `now`, ns (R22). -/
def siteOff : Key := 0x1000002
/-- 1 once this frame's commit cut-off has been taken (R26). -/
def snapTaken : Key := 0x1000003
/-- Stamp sequence number (R31, R45). -/
def seqNo : Key := 0x1000004
/-- 1 during an alignment gap (R24). -/
def inGap : Key := 0x1000005
/-- Consecutive frames with the phase error within 1 µs (R24). -/
def lockFrames : Key := 0x1000006
/-- 1 once the Shelver has computed in this frame (R85). -/
def shDone : Key := 0x1000007
/-- 1 while a Shelver result waits for the coming PFB (R91). -/
def shValid : Key := 0x1000008
/-- 1 until the first PFB's evaluation of the loaded configuration (R58). -/
def loadEval : Key := 0x1000009
/-- The same for the MET group (R58). -/
def loadEvalMet : Key := 0x100000A
/-- 1 while the CA island processes samples (R126). -/
def caRun : Key := 0x100000B
/-- Time of the last PTP Sync, -1 none (R23). -/
def ptpSyncNs : Key := 0x100000C
/-- Origin of the Sync in work, ns (R22). -/
def ptpT1 : Key := 0x100000D
/-- Site time at which it arrived. -/
def ptpT2 : Key := 0x100000E
/-- Site time at which the delay request left. -/
def ptpT3 : Key := 0x100000F
/-- Consecutive missing FSYNC edges (R23). -/
def fsyncMiss : Key := 0x1000010
/-- 1 where an FSYNC edge has come in this frame. -/
def fsyncSeen : Key := 0x1000011
/-- Mask of lost time sources, bit = code of 2010h.03; PTP and FSYNC count as lost until they come (R23). -/
def srcLost : Key := 0x1000012
/-- DOMAIN_OFF request waiting for the PFB (R69). -/
def domOff : Key := 0x1000013
/-- DOMAIN_ON request waiting for the PFB (R71). -/
def domOn : Key := 0x1000014
/-- RESET_REQ value waiting for the PFB, 0 none (R76). -/
def resetDue : Key := 0x1000015
/-- The same, at its PFB. -/
def resetNow : Key := 0x1000016
/-- Time at which the AP reset began (R77). -/
def apNs : Key := 0x1000017
/-- 1 while a STORE waits for the PFB's snapshot (R57). -/
def storeReqd : Key := 0x1000018
/-- Cause of the full power-on reset in force (RESET_CAUSE code). -/
def porCause : Key := 0x1000019
/-- Time at which the reset conditions cleared (2060h.07). -/
def startNs : Key := 0x100001A
/-- 1 during an AP reset (R77). -/
def apDown : Key := 0x100001B
/-- 1 during a CA reset (R77). -/
def caReset : Key := 0x100001C
/-- Time at which it began. -/
def caResetNs : Key := 0x100001D
/-- A pair role that takes effect at the PFB, plus 1; 0 none (R310). -/
def roleDue : Key := 0x100001E
/-- FRAME_NO of the swap PFB, -1 none (R327). -/
def swapPfb : Key := 0x100001F
/-- GRID_IMPORT_W as it last entered by a stamp (R83). -/
def grid : Key := 0x1000020
/-- T_d as it last took effect (R213). -/
def dieReading : Key := 0x1000021
/-- Life-cycle state due at the next PFB, plus 1 (R359). -/
def lcDue : Key := 0x1000022
/-- 1 once both VIO0 and VBAT were absent (R67). -/
def aoLost : Key := 0x1000023
/-- Time of that. -/
def aoLostNs : Key := 0x1000024
/-- 0 while the RTC is invalid (R67). -/
def rtcValid : Key := 0x1000025
/-- 1 while VCORE or VIO0 is below the folio write threshold (R367). -/
def supplyLow : Key := 0x1000026
/-- 1 where PLACE or a PM group was accepted with a change at this PFB (R30). -/
def shDiscard : Key := 0x1000027
/-- Mask of OUT groups accepted at this PFB (R30). -/
def outEval : Key := 0x1000028
/-- Mask of outputs that end with SAFE_TRIP in the coming control sample (R333). -/
def sfEnd : Key := 0x1000029
/-- Start of the last SF cycle, -1 none (R343). -/
def sfCycNs : Key := 0x100002A
/-- Time since which the two units' SF_STATE or OUT_LOCK differ, -1 none (R345). -/
def sfDiffNs : Key := 0x100002B
/-- SF_STATE of the partner's last SAMPLE (R345). -/
def sfPartner : Key := 0x100002C
/-- Its SCO_CUT. -/
def sfPartnerCut : Key := 0x100002D
/-- Its OUT_LOCK[0] bits. -/
def sfPartnerLocks : Key := 0x100002E
/-- 1 while R217 requests the die over-temperature function (R333). -/
def dieReq : Key := 0x100002F
/-- 1: that demand waits for the SF cycle. -/
def dieDem : Key := 0x1000030
/-- Time of the last test pulse of source t, -1 none (R334). -/
def tpNs (t : Nat) : Key := 0x1000031 + t
/-- Number of the last MT sample (R179). -/
def mtNo : Key := 0x1000035
/-- Ticks since the last latch boundary (R190). -/
def mtTickN : Key := 0x1000036
/-- 1: the boundary is due. -/
def mtLatchDue : Key := 0x1000037
/-- MT sample of the last tick, -1 none (R189). -/
def mtLastTick : Key := 0x1000038
/-- 1: the channel has been below −2 % since the last detection (R188). -/
def zcArmed : Key := 0x1000039
/-- Its last value, µV. -/
def zcPrev : Key := 0x100003A
/-- Time of the last detected crossing, in 2^-32 MT samples, -1 none. -/
def zcDet : Key := 0x100003B
/-- 1: a detected crossing counts and waits for its command. -/
def zcPend : Key := 0x100003C
/-- MT sample of the last counted crossing, -1 none. -/
def zcCounted : Key := 0x100003D
/-- Time of the last tick crossing, in 2^-32 MT samples, -1 none. -/
def zcTick : Key := 0x100003E
/-- Consecutive counted crossings while NO_MAINS is set (R189). -/
def zcRun : Key := 0x100003F
/-- 1: NO_MAINS (R189). -/
def mtNoMains : Key := 0x1000040
/-- MT sample of the last latch boundary (R190). -/
def mtLatchNo : Key := 0x1000041
/-- Samples since the last reading (R192). -/
def mtInstN : Key := 0x1000042
/-- Consecutive intervals in which reference r differed (R182). -/
def driftN (t : Nat) : Key := 0x1000043 + t
/-- FRAME_NO since which the references have agreed, -1 not (R182). -/
def driftFrame : Key := 0x1000046
/-- 1: DRIFT_CLEAR has been written (R182). -/
def driftReq : Key := 0x1000047
/-- 1: an entry was dropped and LEDGER_FREE has not exceeded 32 since (R207). -/
def mtFull : Key := 0x1000048
/-- Highest sequence number given to an entry (R204). -/
def ledgerSeq : Key := 0x1000049
/-- Time of the last totals save (R197). -/
def mtSaveNs : Key := 0x100004A
/-- AO ticks counted while the model's time stood still (R200). -/
def aoBase : Key := 0x100004B
/-- 1: the coming recovery follows a full power-on reset (R201). -/
def mtWhole : Key := 0x100004C
/-- KEY_ID before a change (R204). -/
def keyIdOld : Key := 0x100004D
/-- Digest of the metrology firmware in the sealed store, SHA-384 (R177). -/
def fwStored : Key := 0x100004E
/-- METROLOGY_FW before a change (R204). -/
def fwVerOld : Key := 0x100004F
/-- 1: a housekeeping round runs (R210). -/
def hkRuns : Key := 0x1000050
/-- Time at which the last round started, -1 none. -/
def hkStart : Key := 0x1000051
/-- FRAME_NO at its start. -/
def hkFrame : Key := 0x1000052
/-- This unit's own T_d (R211). -/
def dieOwn : Key := 0x1000053
/-- FRAME_NO of the last throttle step, -1 none (R215). -/
def thrFrame : Key := 0x1000054
/-- Time since which the die has been below its release level, -1 none (R215). -/
def thrDieNs : Key := 0x1000055
/-- 1: the field die has restarted and waits for its commands (R229). -/
def fldResync : Key := 0x1000056
/-- FRAME_NO of the last run of the battery estimator, -1 none (R247). -/
def estFrame : Key := 0x1000057
/-- Consecutive updates that overran (R247). -/
def estOver : Key := 0x1000058
/-- 1: the last write of region r failed (R366). -/
def regFail (t : Nat) : Key := 0x1000059 + t
/-- Folios of region r that a default stands for since the start (R369). -/
def regDef (t : Nat) : Key := 0x1000060 + t
/-- FRAME_NO of the last front-end commands, -1 none (R289). -/
def feDone : Key := 0x1000067
/-- 0 ready, 1 sending, 2 waiting for a REPLY, 3 an attempt's end is stamped, 5 in a beacon slot (R300, R301). -/
def mplSt : Key := 0x1000068
/-- TYPE of the frame being sent. -/
def mplKind : Key := 0x1000069
/-- Reference crossings before the next frame may start (R300, R303, R304). -/
def mplGap : Key := 0x100006A
/-- Reference crossings since the end of the last half cycle sent, or since the slot began. -/
def mplWait : Key := 0x100006B
/-- Station being polled or whose slot runs; 0 the lowest. -/
def mplAddr : Key := 0x100006C
/-- Failed attempts at it (R300). -/
def mplTry : Key := 0x100006D
/-- 1: a BROADCAST is requested (R300). -/
def mplBcast : Key := 0x100006E
/-- 1: the slot's REPLY has come (R301). -/
def mplGot : Key := 0x100006F
/-- Beacon count (R301). -/
def mplBeacons : Key := 0x1000070
/-- Consecutive counted reference crossings (R303). -/
def mplRet : Key := 0x1000071
/-- Time of the last counted reference crossing, -1 none (R293). -/
def mplLast : Key := 0x1000072
/-- 1: a pair is configured, as PAIR_ENABLE stood at the last start (R310). -/
def pairOn : Key := 0x1000073
/-- FRAME_NO of the last PFB at which the cause of degrade flag b was present (R40). -/
def degLast (t : Nat) : Key := 0x1000074 + t
/-- FRAME_NO of the last engine self-test, -1 none (R154). -/
def engTestFrame : Key := 0x100007C
/-- Time of the last valid SAMPLE, -1 none (R321). -/
def pairSampleNs : Key := 0x100007D
/-- Consecutive mismatching samples (R319). -/
def pairMis : Key := 0x100007E
/-- Groups that differed in them. -/
def pairMisMask : Key := 0x100007F
/-- Frame x 500 + sample of the first. -/
def pairMisAt : Key := 0x1000080
/-- FRAME_NO of the last mismatching sample, -1 none (R326). -/
def pairMisFrame : Key := 0x1000081
/-- Fast self-diagnosis: 0 none, 1 of R319, 2 of R321. -/
def diagRun : Key := 0x1000082
/-- This unit's verdict: 0 none, 1 pass, 2 fault. -/
def diagOwn : Key := 0x1000083
/-- The partner's. -/
def diagPart : Key := 0x1000084
/-- Engine that the own diagnosis found failing, 15 none. -/
def diagEngine : Key := 0x1000085
/-- 1: every gate is held low (R24, R319). -/
def gatesLow : Key := 0x1000086
/-- CLAIM, PAIR_OWN[0] (R310). -/
def claim : Key := 0x1000087
/-- The partner's CLAIM, PAIR_OWN[1]. -/
def pClaim : Key := 0x1000088
/-- Consecutive samples in which SEL_FB read 0 (R320). -/
def selLow : Key := 0x1000089
/-- Consecutive samples in which it read 1. -/
def selHigh : Key := 0x100008A
/-- Takeover under way: cause of event B1h, 0 none (R323). -/
def takeCause : Key := 0x100008B
/-- Time at which CLAIM was lowered and raised again, -1 not (R320). -/
def reclaimNs : Key := 0x100008C
/-- 1: a join runs (R312). -/
def joining : Key := 0x100008D
/-- Consecutive frames in which both sums have matched. -/
def joinCnt : Key := 0x100008E
/-- Consecutive frames in which they differed (R317). -/
def sumBad : Key := 0x100008F
/-- 1 a swap is requested, 2 the daily swap waits for idle outputs (R326). -/
def swapWant : Key := 0x1000090
/-- Time of the request. -/
def swapNs : Key := 0x1000091
/-- 1 this unit hands over, 2 it takes over (R327). -/
def swapRun : Key := 0x1000092
/-- Day of site time of the last daily swap, -1 none. -/
def swapDay : Key := 0x1000093
/-- 1: the last message's copy on the lane was absent or failed (R315). -/
def laneBad (t : Nat) : Key := 0x1000094 + t
/-- FRAME_NO at which the cause of HEALTH bit b was last seen (R328). -/
def healthLast (t : Nat) : Key := 0x1000096 + t
/-- 1: a swap has succeeded since the start (R329). -/
def ownSwap : Key := 0x10000A0
/-- Time since which the owner has held a CLOSED leg, -1 none (R329). -/
def ownClosedNs : Key := 0x10000A1
/-- Time at which this unit last held SEL_FB. -/
def undrivenNs : Key := 0x10000A2
/-- 1: it drove the shared buses in the last sample (R309). -/
def wasOnBus : Key := 0x10000A3
/-- 1: the partner is incompatible (R311). -/
def incompat : Key := 0x10000A4
/-- Island of the next segment (R385). -/
def segNextI : Key := 0x10000A5
/-- Its partition. -/
def segNextP : Key := 0x10000A6
/-- FRAME_NO at which the last segment ended, -1 none. -/
def segEndFrame : Key := 0x10000A7
/-- Outputs that the running injection names as targets (R389). -/
def injMask : Key := 0x10000A8
/-- VAULT_CMD that runs, 0 none (R354). -/
def vaultRun : Key := 0x10000A9
/-- Its SLOT. -/
def vrSlot : Key := 0x10000AA
/-- Its ATTR. -/
def vrAttr : Key := 0x10000AB
/-- Its KEY_TYPE. -/
def vrType : Key := 0x10000AC
/-- Its DATA_LEN. -/
def vrLen : Key := 0x10000AD
/-- Its DATA. -/
def vrData : Key := 0x10000AE
/-- SWAP: 0 waits for its folio, 1 due at the boundary, 2 done, 3 folio failed, 4 supply too low (R356). -/
def vaultPhase : Key := 0x10000AF
/-- 1: SLOT names a blob, 0: a slot, for VERIFY_STAGE, SWAP and DISCARD (R357). -/
def vaultBlob : Key := 0x10000B0
/-- Target of the challenge (R359). -/
def lcTo : Key := 0x10000B1
/-- Time at which the challenge was issued, -1 none or used. -/
def lcNs : Key := 0x10000B2
/-- 1: the DUS helper data is erased (R361). -/
def dusGone : Key := 0x10000B3
/-- 1: image A is on trial (R358). -/
def imgTrial : Key := 0x10000B4
/-- Firmware-verification key that a confirmed image brought (R357), 0 none: Thokofa's own. -/
def fwKey : Key := 0x10000B5
/-- The key under which that image was accepted, 0 Thokofa's own. -/
def fwKeyOld : Key := 0x10000B6
/-- 1: UNWATCHED_S waits for a locked time source (R361). -/
def unwatchDue : Key := 0x10000B7
/-- FRAME_NO of the last queue scrub, -1 none (R371). -/
def scrubFrame : Key := 0x10000B8
/-- FRAME_NO of the last telemetry record, -1 none (R377). -/
def tlmFrame : Key := 0x10000B9
/-- SERIAL of the partner (R362 region 4). -/
def partnerSerial : Key := 0x10000BA
/-- Its IMAGE_VER. -/
def partnerImage : Key := 0x10000BB
/-- FRAME_NO of the last join. -/
def joinFrame : Key := 0x10000BC
/-- PAIR_ROLE as the pair identity folio holds it. -/
def pairLastRole : Key := 0x10000BD
/-- Islands of the requested stocktake still to run (R382). -/
def stMask : Key := 0x10000BE
/-- Time at which the present run began (R378). -/
def stRunNs : Key := 0x10000BF
/-- Time at which the injection began (R391). -/
def injNs : Key := 0x10000C0
/-- The reaction's signal at that time. -/
def injBase : Key := 0x10000C1
/-- Time at which the injection challenge was issued, -1 none or used (R390). -/
def chalNs : Key := 0x10000C2
/-- End of the injection permit, -1 none. -/
def permitEnd : Key := 0x10000C3
/-- Its outputs. -/
def permitMask : Key := 0x10000C4
/-- A state change due at the PFB: 0 none, else target state + 1 (R104). -/
def outPend (k : Nat) : Key := 0x1010001 + 256 * k
/-- Its cause (R106). -/
def outPendCause (k : Nat) : Key := 0x1010002 + 256 * k
/-- Time of entry to the present state. -/
def outNs (k : Nat) : Key := 0x1010003 + 256 * k
/-- Time of the last main-contactor command (R108). -/
def outCmdNs (k : Nat) : Key := 0x1010004 + 256 * k
/-- Start of the isolation hold or of the in-tolerance time, -1 none (R108, R109). -/
def outHoldNs (k : Nat) : Key := 0x1010005 + 256 * k
/-- Lowest insulation reading of the hold, kΩ, -1 none (R108). -/
def outIsoMin (k : Nat) : Key := 0x1010006 + 256 * k
/-- ISO_TEST_V in mV (R108). -/
def outIsoV (k : Nat) : Key := 0x1010007 + 256 * k
/-- 1: precharge ready (R109). -/
def outReady (k : Nat) : Key := 0x1010008 + 256 * k
/-- Time since which the MT meter has read below 2 A, -1 none (R111, R114). -/
def outLowNs (k : Nat) : Key := 0x1010009 + 256 * k
/-- Time at which the current limit reached 0, -1 none (R111). -/
def outZeroNs (k : Nat) : Key := 0x101000A + 256 * k
/-- Ramp rate, mA/ms (R106). -/
def outRate (k : Nat) : Key := 0x101000B + 256 * k
/-- 1: the vehicle reported its contactors open (R111). -/
def outVehOpen (k : Nat) : Key := 0x101000C + 256 * k
/-- 1: the vehicle link is lost (R111). -/
def outLinkLost (k : Nat) : Key := 0x101000D + 256 * k
/-- Weld-check phase: 1 A, 2 B closing, 3 B open, 4 C, 5 passed, 6 bleed opened (R112). -/
def outPhase (k : Nat) : Key := 0x101000E + 256 * k
/-- Start of that phase. -/
def outPhaseNs (k : Nat) : Key := 0x101000F + 256 * k
/-- Time since which the phase's contact has read open and the MT voltage has been below 30 V, -1 none (R112). -/
def outQuietNs (k : Nat) : Key := 0x1010010 + 256 * k
/-- 1: the phase's conditions are met; the next follows at the PFB. -/
def outPhaseDone (k : Nat) : Key := 0x1010011 + 256 * k
/-- 1: the vehicle was unplugged during RAMP_DOWN or WELD_CHECK (R113). -/
def outGone (k : Nat) : Key := 0x1010012 + 256 * k
/-- Time since which the grant has been 0, -1 none (R110). -/
def outPauseNs (k : Nat) : Key := 0x1010013 + 256 * k
/-- Limit of RAMP_DOWN, mA (R150). -/
def outLim (k : Nat) : Key := 0x1010014 + 256 * k
/-- I_dem of the snapshot whose result applied last (R91). -/
def outIdem (k : Nat) : Key := 0x1010015 + 256 * k
/-- 1: found closed at start-up, 2: commanded open (R79). -/
def outFound (k : Nat) : Key := 0x1010016 + 256 * k
/-- Time of that command. -/
def outFoundNs (k : Nat) : Key := 0x1010017 + 256 * k
/-- Time since which the MT meter has read 2 A or more, -1 none (R79). -/
def outHighNs (k : Nat) : Key := 0x1010018 + 256 * k
/-- Filter output of its voltage, Q4.28 (R128). -/
def outX (k : Nat) : Key := 0x1010019 + 256 * k
/-- 1: a load step was found (R162). -/
def llAbort (k : Nat) : Key := 0x101001A + 256 * k
/-- 1: the output's voltage loop runs (R144). -/
def vlRun (k : Nat) : Key := 0x101001B + 256 * k
/-- z1 of the voltage loop (R137). -/
def vlZ1 (k : Nat) : Key := 0x101001C + 256 * k
/-- z2. -/
def vlZ2 (k : Nat) : Key := 0x101001D + 256 * k
/-- Its last output u, Q4.28. -/
def vlU (k : Nat) : Key := 0x101001E + 256 * k
/-- Its last reference (R138). -/
def vlR (k : Nat) : Key := 0x101001F + 256 * k
/-- Voltage generator p, nV (R148). -/
def pvP (k : Nat) : Key := 0x1010020 + 256 * k
/-- Its rate. -/
def pvV (k : Nat) : Key := 0x1010021 + 256 * k
/-- Its acceleration. -/
def pvA (k : Nat) : Key := 0x1010022 + 256 * k
/-- Current-limit generator p, nA. -/
def piP (k : Nat) : Key := 0x1010023 + 256 * k
/-- Its rate. -/
def piV (k : Nat) : Key := 0x1010024 + 256 * k
/-- Its acceleration. -/
def piA (k : Nat) : Key := 0x1010025 + 256 * k
/-- Per-step limits of the voltage generator (R147). -/
def vVs (k : Nat) : Key := 0x1010026 + 256 * k
/-- - -/
def vAs (k : Nat) : Key := 0x1010027 + 256 * k
/-- - -/
def vJs (k : Nat) : Key := 0x1010028 + 256 * k
/-- Per-step limits of the current-limit generator. -/
def iVs (k : Nat) : Key := 0x1010029 + 256 * k
/-- - -/
def iAs (k : Nat) : Key := 0x101002A + 256 * k
/-- - -/
def iJs (k : Nat) : Key := 0x101002B + 256 * k
/-- Time since which the load has been below the shedding bound (R160). -/
def llNs (k : Nat) : Key := 0x101002C + 256 * k
/-- Time since which it has been below the burst bound (R163). -/
def llBurstNs (k : Nat) : Key := 0x101002D + 256 * k
/-- End of the settle window (R162). -/
def llSettle (k : Nat) : Key := 0x101002E + 256 * k
/-- 1 while a shedding ramp runs (R161). -/
def llRamp (k : Nat) : Key := 0x101002F + 256 * k
/-- Consecutive outer periods clamped at hi_eff (R162). -/
def llClamped (k : Nat) : Key := 0x1010030 + 256 * k
/-- Sample count at entry to BURST (R163). -/
def llStart (k : Nat) : Key := 0x1010031 + 256 * k
/-- Windows ended since; -1 not in BURST. -/
def llCount (k : Nat) : Key := 0x1010032 + 256 * k
/-- Sum of |I_tot| over the cycle under way, mA. -/
def llSum (k : Nat) : Key := 0x1010033 + 256 * k
/-- Samples of that cycle. -/
def llN (k : Nat) : Key := 0x1010034 + 256 * k
/-- Mask of the modules kept at the level (R159). -/
def llMods (k : Nat) : Key := 0x1010035 + 256 * k
/-- Sample count at which a weight ramp began (R97). -/
def ramp0 (k : Nat) : Key := 0x1010036 + 256 * k
/-- Its J. -/
def rampN (k : Nat) : Key := 0x1010037 + 256 * k
/-- 1 while it runs. -/
def rampOn (k : Nat) : Key := 0x1010038 + 256 * k
/-- The absorbing module, -1 none (R84). -/
def rampKey (k : Nat) : Key := 0x1010039 + 256 * k
/-- 1: a vehicle has been reported present, and no unplug since (R266). -/
def vehHere (k : Nat) : Key := 0x101003A + 256 * k
/-- Contactors wanted: [0] DC+, [1] DC−, [2] BLEED (R105). -/
def outWant (k : Nat) : Key := 0x101003B + 256 * k
/-- Frame of the result whose joins are counted (R101). -/
def outJoinFrame (k : Nat) : Key := 0x101003C + 256 * k
/-- Modules of it whose selector has been confirmed closed. -/
def outJoinCount (k : Nat) : Key := 0x101003D + 256 * k
/-- Consecutive SF evaluations above OV_LIMIT (R336). -/
def sfOvCnt (k : Nat) : Key := 0x101003E + 256 * k
/-- 1: an over-voltage demand waits for the SF cycle. -/
def ovDem (k : Nat) : Key := 0x101003F + 256 * k
/-- Time since which the insulation condition holds, -1 none (R333). -/
def sfImdNs (k : Nat) : Key := 0x1010040 + 256 * k
/-- 1: an insulation demand waits for the SF cycle. -/
def imdDem (k : Nat) : Key := 0x1010041 + 256 * k
/-- 1 while R222 requests the cable hot-spot function (R333). -/
def hotReq (k : Nat) : Key := 0x1010042 + 256 * k
/-- 1: a hot-spot demand waits for the SF cycle. -/
def hotDem (k : Nat) : Key := 0x1010043 + 256 * k
/-- Classification of the last IMD period (R337). -/
def imdLast (k : Nat) : Key := 0x1010044 + 256 * k
/-- 1 while a TCP connection is open (R260). -/
def tcpOpen (k : Nat) : Key := 0x1010045 + 256 * k
/-- 1 while its TLS session is up (R261). -/
def tlsUp (k : Nat) : Key := 0x1010046 + 256 * k
/-- Traffic secrets of that session, in the vehicle-link engine (R262). -/
def tlsSecret (k : Nat) : Key := 0x1010047 + 256 * k
/-- Time of the last request of the session, -1 no session (R272). -/
def vlMsgNs (k : Nat) : Key := 0x1010048 + 256 * k
/-- Time of the last complete sequence step (R272). -/
def vlSeqNs (k : Nat) : Key := 0x1010049 + 256 * k
/-- 1: the next answer carries ScheduleRenegotiation (R270). -/
def vlReneg (k : Nat) : Key := 0x101004A + 256 * k
/-- 1: it has been sent, and ScheduleExchange may be repeated. -/
def vlRenegSent (k : Nat) : Key := 0x101004B + 256 * k
/-- Time since which the limit has been below the schedule, -1 not (R270). -/
def renegNs (k : Nat) : Key := 0x101004C + 256 * k
/-- Present schedule entry's current, mA (R270). -/
def schedI (k : Nat) : Key := 0x101004D + 256 * k
/-- 1: SLAC has matched since CONNECTED (R263). -/
def slacDone (k : Nat) : Key := 0x101004E + 256 * k
/-- Discharge limit stated by the vehicle under DC_BPT, mA (R144). -/
def iNeg (k : Nat) : Key := 0x101004F + 256 * k
/-- z1 of the channel loop (R137). -/
def chZ1 (n : Nat) : Key := 0x1020001 + 256 * n
/-- z2. -/
def chZ2 (n : Nat) : Key := 0x1020002 + 256 * n
/-- Its reference r, Q4.28 (R145). -/
def chRef (n : Nat) : Key := 0x1020003 + 256 * n
/-- 1: a positive event came in this carrier period (R130). -/
def ocPos (n : Nat) : Key := 0x1020004 + 256 * n
/-- 1: a negative event came in it. -/
def ocNeg (n : Nat) : Key := 0x1020005 + 256 * n
/-- Gates a comparator event holds low: [0] PWM_H, [1] PWM_L (R131). -/
def chForced (n : Nat) : Key := 0x1020006 + 256 * n
/-- Filter output x, Q4.28 (R128). -/
def chX (n : Nat) : Key := 0x1020007 + 256 * n
/-- D(m,j) of the frame before (R158). -/
def chDelayOld (n : Nat) : Key := 0x1020008 + 256 * n
/-- 1: the period is limited (R165). -/
def chLimited (n : Nat) : Key := 0x1020009 + 256 * n
/-- Time of entry to HICCUP (R166). -/
def hicNs (n : Nat) : Key := 0x102000A + 256 * n
/-- Time spent in CLOSED with no limited period, ns (R167). -/
def cleanNs (n : Nat) : Key := 0x102000B + 256 * n
/-- Gates held low from the start of driving to their next edge: [0] PWM_H, [1] PWM_L (R323). -/
def chHold (n : Nat) : Key := 0x102000C + 256 * n
/-- 1: shed or sleeping (R159, R163). -/
def chShed (n : Nat) : Key := 0x102000D + 256 * n
/-- D(m,j) in force, ticks (R155). -/
def chDelay (n : Nat) : Key := 0x102000E + 256 * n
/-- Half-rate slot's engine after a remap, -1 none (R39). -/
def chSlot (n : Nat) : Key := 0x102000F + 256 * n
/-- 1: returns to its own engine at the PFB (R40). -/
def chRet (n : Nat) : Key := 0x1020010 + 256 * n
/-- 1: opened by its engine's failure or return and closes again; 2: without an engine slot (R39). -/
def chStopped (n : Nat) : Key := 0x1020011 + 256 * n
/-- Output it counts as connected for, plus 1; 0 none (R91). -/
def modConn (m : Nat) : Key := 0x1030001 + 256 * m
/-- Filter output of its link voltage, Q4.28 (R128). -/
def modX (m : Nat) : Key := 0x1030002 + 256 * m
/-- Consecutive samples of the node within 2 V (R96). -/
def nodeCnt (m : Nat) : Key := 0x1030003 + 256 * m
/-- Consecutive samples with the sum of its SD_I below 2 A (R96). -/
def drainCnt (m : Nat) : Key := 0x1030004 + 256 * m
/-- End of its dwell, -1 none (R90). -/
def dwellEnd (m : Nat) : Key := 0x1030005 + 256 * m
/-- Time of its quarantine, -1 not quarantined (R102). -/
def quarNs (m : Nat) : Key := 0x1030006 + 256 * m
/-- Release under way: 0 none, 1 waiting below 2 A, 2 commanded open (R81). -/
def relState (m : Nat) : Key := 0x1030007 + 256 * m
/-- Output it is released from. -/
def relOut (m : Nat) : Key := 0x1030008 + 256 * m
/-- Time since which its current has been below 2 A, -1 none (R79). -/
def lowNs (m : Nat) : Key := 0x1030009 + 256 * m
/-- Time at which its open command of R79 went out, -1 none. -/
def unkNs (m : Nat) : Key := 0x103000A + 256 * m
/-- Consecutive samples above LINK_OV (R168). -/
def ovCnt (m : Nat) : Key := 0x103000B + 256 * m
/-- Consecutive samples below 95 % of it. -/
def ovLow (m : Nat) : Key := 0x103000C + 256 * m
/-- Time since which every reading has stayed at or below TLATCH_REL, -1 none (R168). -/
def tlNs (m : Nat) : Key := 0x103000D + 256 * m
/-- 1: a card was captured since the last folio write (R175). -/
def cardDirty (m : Nat) : Key := 0x103000E + 256 * m
/-- Weight before the ramp (R97). -/
def modOldW (m : Nat) : Key := 0x103000F + 256 * m
/-- Weight after it. -/
def modNewW (m : Nat) : Key := 0x1030010 + 256 * m
/-- Operating time not yet counted in HOURS, ns. -/
def hourNs (m : Nat) : Key := 0x1030011 + 256 * m
/-- 1: FROZEN by a LOST expander (R123). -/
def frozenLost (m : Nat) : Key := 0x1030012 + 256 * m
/-- 1: found closed at start-up, 2: commanded open (R79). -/
def reconSel (m : Nat) : Key := 0x1030013 + 256 * m
/-- Time since which its current has been at 2 A or more, -1 none (R79). -/
def highNs (m : Nat) : Key := 0x1030014 + 256 * m
/-- 1: its gates are off though its legs are CLOSED: step 4 of a handover ran out of time (R96). -/
def modOff (m : Nat) : Key := 0x1030015 + 256 * m
/-- Consecutive invalid cycles (R123). -/
def expBad (x : Nat) : Key := 0x1040001 + 256 * x
/-- Consecutive valid responses. -/
def expGood (x : Nat) : Key := 0x1040002 + 256 * x
/-- Cycles in which the changed word is still to be sent (R121). -/
def expLeft (x : Nat) : Key := 0x1040003 + 256 * x
/-- Group of the word: 1 SF island, 2 clears a bit, 3 other. -/
def expKind (x : Nat) : Key := 0x1040004 + 256 * x
/-- 1: the word is known (R79, R121). -/
def expKnown (x : Nat) : Key := 0x1040005 + 256 * x
/-- AUX of the valid response before the last. -/
def expPrev (x : Nat) : Key := 0x1040006 + 256 * x
/-- Coils with a repeated open command (R96 step 5). -/
def expHold (x : Nat) : Key := 0x1040007 + 256 * x
/-- Word commanded before the present cycle (R123). -/
def expOld (x : Nat) : Key := 0x1040008 + 256 * x
/-- Word commanded when the last cycle was filled. -/
def expLast (x : Nat) : Key := 0x1040009 + 256 * x
/-- Mask of coils reading closed without a command since their time-out (R338). -/
def expStuck (x : Nat) : Key := 0x104000A + 256 * x
/-- Mask of coils confirmed open since their open command (R338). -/
def expConf (x : Nat) : Key := 0x104000B + 256 * x
/-- Time of the open command of coil c (R338). -/
def expOffAt (x t : Nat) : Key := 0x104000C + 256 * x + t
/-- Number of valid responses. -/
def expRead (x : Nat) : Key := 0x104001C + 256 * x
/-- 1: its filter time is over and it has not read high since (R334). -/
def siDem (i : Nat) : Key := 0x1070001 + 256 * i
/-- Latched fault: 3 test pulse, 4 discrepancy (R335). -/
def siFault (i : Nat) : Key := 0x1070002 + 256 * i
/-- Time of it. -/
def siFaultNs (i : Nat) : Key := 0x1070003 + 256 * i
/-- 1: it read high in the last SF cycle. -/
def siHigh (i : Nat) : Key := 0x1070004 + 256 * i
/-- 1: a demand arose since the last SF cycle. -/
def siNew (i : Nat) : Key := 0x1070005 + 256 * i
/-- Import register, mWh (R185). -/
def mImp (q : Nat) : Key := 0x1080001 + 256 * q
/-- Export register. -/
def mExp (q : Nat) : Key := 0x1080002 + 256 * q
/-- Its residue, pW·samples. -/
def mResImp (q : Nat) : Key := 0x1080003 + 256 * q
/-- Its residue. -/
def mResExp (q : Nat) : Key := 0x1080004 + 256 * q
/-- Fundamental import register (R186). -/
def mFImp (q : Nat) : Key := 0x1080005 + 256 * q
/-- Fundamental export register. -/
def mFExp (q : Nat) : Key := 0x1080006 + 256 * q
/-- Its residue. -/
def mFResImp (q : Nat) : Key := 0x1080007 + 256 * q
/-- Its residue. -/
def mFResExp (q : Nat) : Key := 0x1080008 + 256 * q
/-- Fundamental reactive registers by quadrant. -/
def mQ (q t : Nat) : Key := 0x1080009 + 256 * q + t
/-- Their residues. -/
def mQRes (q t : Nat) : Key := 0x108000D + 256 * q + t
/-- Sum of p over the interval, pW. -/
def mSumP (q : Nat) : Key := 0x1080011 + 256 * q
/-- Samples of the interval. -/
def mN (q : Nat) : Key := 0x1080012 + 256 * q
/-- 1: an input exceeded its range in the interval (R187). -/
def mOver (q : Nat) : Key := 0x1080013 + 256 * q
/-- Session import, mWh. -/
def mSessImp (q : Nat) : Key := 0x1080014 + 256 * q
/-- Session export. -/
def mSessExp (q : Nat) : Key := 0x1080015 + 256 * q
/-- 1: an interval of the open session was over range. -/
def mSessOver (q : Nat) : Key := 0x1080016 + 256 * q
/-- 1: not for billing at a sample of the session (R202). -/
def mSessNb (q : Nat) : Key := 0x1080017 + 256 * q
/-- METER_CONTEXT at its start (R204). -/
def mSessCtx (q : Nat) : Key := 0x1080018 + 256 * q
/-- Session identity. -/
def mSessId (q : Nat) : Key := 0x1080019 + 256 * q
/-- SESSION_NO. -/
def mSessNo (q : Nat) : Key := 0x108001A + 256 * q
/-- Current of the last two samples, µA (R192). -/
def mI (q t : Nat) : Key := 0x108001B + 256 * q + t
/-- Voltage of the last two samples, µV. -/
def mV (q t : Nat) : Key := 0x108001D + 256 * q + t
/-- Sum of v² by phase. -/
def gV2 (g t : Nat) : Key := 0x1090001 + 256 * g + t
/-- Sum of i² by channel. -/
def gI2 (g t : Nat) : Key := 0x1090004 + 256 * g + t
/-- Sum of v·i by phase. -/
def gPs (g t : Nat) : Key := 0x1090008 + 256 * g + t
/-- Line cycles of the interval. -/
def gCyc (g : Nat) : Key := 0x109000B + 256 * g
/-- Sum of P1 by phase, pW. -/
def gP1 (g t : Nat) : Key := 0x109000C + 256 * g + t
/-- Sum of Q1 by phase. -/
def gQ1 (g t : Nat) : Key := 0x109000F + 256 * g + t
/-- Sum of THD, 0.01 %. -/
def gThdV (g t : Nat) : Key := 0x1090012 + 256 * g + t
/-- Sum of THD, 0.01 %. -/
def gThdI (g t : Nat) : Key := 0x1090015 + 256 * g + t
/-- Cycles with a THD: three voltages, three currents. -/
def gThdN (g t : Nat) : Key := 0x1090018 + 256 * g + t
/-- Sum of the cycles' frequencies, mHz. -/
def gFreq (g : Nat) : Key := 0x109001E + 256 * g
/-- Integrator state with 30 fraction bits of full scale. -/
def gY (g t : Nat) : Key := 0x109001F + 256 * g + t
/-- Its last input, same unit. -/
def gU (g t : Nat) : Key := 0x1090023 + 256 * g + t
/-- Pulse accumulator (R193). -/
def puAcc (j : Nat) : Key := 0x10A0001 + 256 * j
/-- Impulses added in the interval (R194). -/
def puCnt (j : Nat) : Key := 0x10A0002 + 256 * j
/-- Width in force, µs (R194). -/
def puW (j : Nat) : Key := 0x10A0003 + 256 * j
/-- 1: the ball is high. -/
def puHigh (j : Nat) : Key := 0x10A0004 + 256 * j
/-- Time of its last edge, -1 none. -/
def puNs (j : Nat) : Key := 0x10A0005 + 256 * j
/-- A status seen once that differs, plus 1; 0 none (R212). -/
def hkNew (c : Nat) : Key := 0x10B0001 + 256 * c
/-- 1: a round has ended since its type was set (R212). -/
def hkAny (c : Nat) : Key := 0x10B0002 + 256 * c
/-- Value in use (R211). -/
def hkUse (c : Nat) : Key := 0x10B0003 + 256 * c
/-- Status in use (R211). -/
def hkUseSt (c : Nat) : Key := 0x10B0004 + 256 * c
/-- Conductor node, 2^-16 °C (R219). -/
def cabC (k : Nat) : Key := 0x10C0001 + 256 * k
/-- Jacket node. -/
def cabJ (k : Nat) : Key := 0x10C0002 + 256 * k
/-- Coolant node. -/
def cabW (k : Nat) : Key := 0x10C0003 + 256 * k
/-- Sum of I_OUT², mA², since the last step (R218). -/
def cabSum (k : Nat) : Key := 0x10C0004 + 256 * k
/-- Samples in it. -/
def cabN (k : Nat) : Key := 0x10C0005 + 256 * k
/-- FRAME_NO of the last step. -/
def cabFrame (k : Nat) : Key := 0x10C0006 + 256 * k
/-- 1: the model has started (R219). -/
def cabRun (k : Nat) : Key := 0x10C0007 + 256 * k
/-- Time since which the cable has been below its release levels, -1 none (R215). -/
def cabRelNs (k : Nat) : Key := 0x10C0008 + 256 * k
/-- 1: the vehicle has stated a maximum current (R268). -/
def evIKnown (k : Nat) : Key := 0x10C0009 + 256 * k
/-- 1: the vehicle has stated a maximum voltage. -/
def evVKnown (k : Nat) : Key := 0x10C000A + 256 * k
/-- Time since which it has been below its release level, -1 none (R215). -/
def hsRelNs (m : Nat) : Key := 0x10D0001 + 256 * m
/-- Time of the last change of stage i, -1 none (R223). -/
def stNs (j t : Nat) : Key := 0x10E0001 + 256 * j + t
/-- Time at which the conditions of stage 0 last ended, -1 none. -/
def clEndNs (j : Nat) : Key := 0x10E0005 + 256 * j
/-- 1: the conditions of stage 0 held at the last round. -/
def clWant (j : Nat) : Key := 0x10E0006 + 256 * j
/-- Time since which the flow has been below FLOW_MIN, -1 none (R224). -/
def clLowNs (j : Nat) : Key := 0x10E0007 + 256 * j
/-- Time since which it has been at or above it. -/
def clOkNs (j : Nat) : Key := 0x10E0008 + 256 * j
/-- Time since which stage 0 has been on, -1 off. -/
def clOnNs (j : Nat) : Key := 0x10E0009 + 256 * j
/-- 1: the channel is on. -/
def fsOn (j : Nat) : Key := 0x10F0001 + 256 * j
/-- Time at which a fault turned it off (R234). -/
def fsOffNs (j : Nat) : Key := 0x10F0002 + 256 * j
/-- Time since which it has been on without a fault (R234). -/
def fsOnNs (j : Nat) : Key := 0x10F0003 + 256 * j
/-- Time of its last off-state test (R235). -/
def fsTestNs (j : Nat) : Key := 0x10F0004 + 256 * j
/-- Consecutive tests without SHORT_VS. -/
def fsNoShort (j : Nat) : Key := 0x10F0005 + 256 * j
/-- Consecutive tests without OPEN_OFF. -/
def fsNoOpen (j : Nat) : Key := 0x10F0006 + 256 * j
/-- Its share of BAT_SET_W, W (R94). -/
def bsSetW (s : Nat) : Key := 0x1060001 + 256 * s
/-- Uncertainty u, µC (R248). -/
def bsU (s : Nat) : Key := 0x1060002 + 256 * s
/-- Charge q, µC (R248). -/
def bsQ (s : Nat) : Key := 0x1060003 + 256 * s
/-- Throughput thru, µC (R248). -/
def bsThruUc (s : Nat) : Key := 0x1060004 + 256 * s
/-- Time since the last rest correction or anchor, ms (R249). -/
def bsSinceMs (s : Nat) : Key := 0x1060005 + 256 * s
/-- Sum of BS_I over the samples of the frame, mA (R243). -/
def bsISum (s : Nat) : Key := 0x1060006 + 256 * s
/-- BS_I's mean over the last complete frame, mA (R243). -/
def bsIMean (s : Nat) : Key := 0x1060007 + 256 * s
/-- i_prev (R248). -/
def bsIPrev (s : Nat) : Key := 0x1060008 + 256 * s
/-- FRAME_NO of the last update, -1 none (R247). -/
def bsLast (s : Nat) : Key := 0x1060009 + 256 * s
/-- Frames to the next update (R247). -/
def bsN (s : Nat) : Key := 0x106000A + 256 * s
/-- Time since which every update has been below the rest threshold, -1 none (R249). -/
def bsRestNs (s : Nat) : Key := 0x106000B + 256 * s
/-- Rest corrections made in this rest. -/
def bsRestCnt (s : Nat) : Key := 0x106000C + 256 * s
/-- Time since which the full conditions have held at every update, -1 none (R250). -/
def bsFullNs (s : Nat) : Key := 0x106000D + 256 * s
/-- The same for the empty conditions. -/
def bsEmptyNs (s : Nat) : Key := 0x106000E + 256 * s
/-- Charge learned so far, µC (R251). -/
def bsLearnUc (s : Nat) : Key := 0x106000F + 256 * s
/-- Charge counted into the string since the learn's start, µC (R251). -/
def bsLearnNeg (s : Nat) : Key := 0x1060010 + 256 * s
/-- Learned capacity that takes effect from the next update, mAh; 0 none (R251). -/
def bsNewC (s : Nat) : Key := 0x1060011 + 256 * s
/-- Last identity that took effect: the code, 255 absent, -1 none yet (R244). -/
def bsSeen (s : Nat) : Key := 0x1060012 + 256 * s
/-- Time of its insertion (R245). -/
def bsPresNs (s : Nat) : Key := 0x1060013 + 256 * s
/-- 1: the insertion of a start-up with a matching code keeps q and u (R256). -/
def bsKeep (s : Nat) : Key := 0x1060014 + 256 * s
/-- 1: the start-up's insertion is still to come (R256). -/
def bsStart (s : Nat) : Key := 0x1060015 + 256 * s
/-- Identity code of the folio, -1 none (R245). -/
def bsFolCode (s : Nat) : Key := 0x1060016 + 256 * s
/-- Time of the last folio save (R255). -/
def bsSaveNs (s : Nat) : Key := 0x1060017 + 256 * s
/-- 1: the time off waits for a locked time source (R256). -/
def bsOffDue (s : Nat) : Key := 0x1060018 + 256 * s
/-- Site time of the folio's save, ns. -/
def bsSavedT (s : Nat) : Key := 0x1060019 + 256 * s
/-- 1: a reset of the control die cut a learn (R251). -/
def bsLearnCut (s : Nat) : Key := 0x106001A + 256 * s
/-- Address after the last one refreshed (R121). -/
def sglNext (l : Nat) : Key := 0x1050001 + 256 * l
/-- Sample count of the last cycle begun (R117). -/
def sglDone (l : Nat) : Key := 0x1050002 + 256 * l
/-- Consecutive failed transfers of modem c (R264). -/
def mdmFail (p t : Nat) : Key := 0x1100001 + 256 * p + t
/-- Buffer in transmission, plus 1; 0 none (R282). -/
def canSending (p : Nat) : Key := 0x1110001 + 256 * p
/-- Site time of its start of frame, ns (R284). -/
def canSof (p : Nat) : Key := 0x1110002 + 256 * p
/-- 1: rejoins after 11 recessive bits (R279, R287). -/
def canRejoin (p : Nat) : Key := 0x1110003 + 256 * p
/-- 1: manual bus-off recovery has been requested (R283). -/
def canRecover (p : Nat) : Key := 0x1110004 + 256 * p
/-- 1: sleep has been requested (R287). -/
def canSleep (p : Nat) : Key := 0x1110005 + 256 * p
/-- 1: stops after the frame in progress (R279). -/
def canStopDue (p : Nat) : Key := 0x1110006 + 256 * p
/-- 1: an abort was written while it was in transmission (R283). -/
def txbStop (i : Nat) : Key := 0x1120001 + 256 * i
/-- ALIVE of the last command (R289). -/
def feAlive (r : Nat) : Key := 0x1130001 + 256 * r
/-- ALIVE of the last valid report, -1 none. -/
def feAliveRx (r : Nat) : Key := 0x1130002 + 256 * r
/-- FRAME_NO at which the last valid report took effect (R290). -/
def feLast (r : Nat) : Key := 0x1130003 + 256 * r
/-- 1: the next command is CMD 2 (R289). -/
def feReset (r : Nat) : Key := 0x1130004 + 256 * r
/-- Time of the last detected crossing, -1 none (R293). -/
def mplDet (p : Nat) : Key := 0x1140001 + 256 * p
/-- 1: MPL_TX pulses in this half cycle. -/
def mplTxBit (p : Nat) : Key := 0x1140002 + 256 * p
/-- Phase of the last valid REPLY (R302). -/
def stPhLast (s : Nat) : Key := 0x1150001 + 256 * s
/-- Consecutive valid REPLYs on it. -/
def stPhCnt (s : Nat) : Key := 0x1150002 + 256 * s
/-- The key: private scalar or symmetric key (R353). -/
def vsKey (s : Nat) : Key := 0x1160001 + 256 * s
/-- The stage's key. -/
def vsStKey (s : Nat) : Key := 0x1160002 + 256 * s
/-- The stage's attribute word. -/
def vsStAttr (s : Nat) : Key := 0x1160003 + 256 * s
/-- Its KEY_TYPE. -/
def vsStType (s : Nat) : Key := 0x1160004 + 256 * s
/-- Its certificate. -/
def vsStCert (s : Nat) : Key := 0x1160005 + 256 * s
/-- The key (R357). -/
def vbKey (b : Nat) : Key := 0x1170001 + 256 * b
/-- The stage's key. -/
def vbStKey (b : Nat) : Key := 0x1170002 + 256 * b
/-- The stage's public key. -/
def vbStPub (b : Nat) : Key := 0x1170003 + 256 * b
/-- LAST_SOURCE code of the last COMMIT request (R38). -/
def reqSrc (g : Nat) : Key := 0x1180001 + 256 * g

end R

/-- 1000h, 1 item(s). -/
def blk1000 : Block := ⟨0x1000, 1, [
  ⟨0x01, 1, .u32, .const, 1414024006, 0, 0, 4294967295, .none⟩,
  ⟨0x02, 1, .octet 16, .const, 326677009779198187291727, 0, 0, (256 ^ 16 - 1), .none⟩,
  ⟨0x03, 1, .u8, .const, 1, 0, 0, 255, .none⟩,
  ⟨0x04, 1, .octet 2, .const, 12610, 0, 0, (256 ^ 2 - 1), .none⟩,
  ⟨0x05, 1, .u32, .ro, 84017152, 0, 0, 4294967295, .none⟩,
  ⟨0x06, 1, .u32, .ro, 33554432, 0, 0, 4294967295, .none⟩,
  ⟨0x07, 1, .octet 16, .const, 0, 0, 0, (256 ^ 16 - 1), .none⟩,
  ⟨0x08, 1, .u16, .ro, 0, 0, 0, 65535, .none⟩,
  ⟨0x09, 1, .u8, .const, 192, 0, 0, 255, .none⟩,
  ⟨0x0A, 1, .u8, .const, 48, 0, 0, 255, .none⟩,
  ⟨0x0B, 1, .u8, .const, 24, 0, 0, 255, .none⟩]⟩
/-- 1010h, 1 item(s). -/
def blk1010 : Block := ⟨0x1010, 1, [
  ⟨0x01, 1, .u8, .ro, 0, 0, 0, 255, .none⟩,
  ⟨0x02, 1, .u8, .rws, 0, 0, 0, 1, .net⟩]⟩
/-- 1020h, 1 item(s). -/
def blk1020 : Block := ⟨0x1020, 1, [
  ⟨0x01, 1, .u8, .rws, 1, 0, 0, 3, .net⟩,
  ⟨0x02, 1, .u8, .rws, 1, 0, 1, 31, .net⟩,
  ⟨0x03, 1, .u16, .rws, 1728, 0, 0, 1984, .net⟩,
  ⟨0x05, 1, .bool, .rw, 0, 0, 0, 1, .none⟩]⟩
/-- 1021h, 1 item(s). -/
def blk1021 : Block := ⟨0x1021, 1, [
  ⟨0x01, 1, .u16, .rws, 47320, 0, 1024, 65535, .net⟩,
  ⟨0x02, 1, .u8, .rws, 1, 0, 0, 3, .net⟩,
  ⟨0x03, 1, .u8, .rws, 0, 0, 0, 255, .net⟩,
  ⟨0x04, 1, .u8, .rws, 1, 0, 0, 255, .net⟩,
  ⟨0x05, 1, .u8, .ro, 0, 0, 0, 255, .none⟩]⟩
/-- 1030h, 1 item(s). -/
def blk1030 : Block := ⟨0x1030, 1, [
  ⟨0x01, 1, .u16, .wo, 0, 0, 0, 65535, .none⟩,
  ⟨0x02, 1, .u16, .wo, 0, 0, 0, 65535, .none⟩,
  ⟨0x03, 1, .u8, .ro, 0, 0, 0, 255, .none⟩,
  ⟨0x04, 1, .u32, .ro, 0, 0, 0, 4294967295, .none⟩,
  ⟨0x05, 1, .octet 48, .ro, 0, 0, 0, (256 ^ 48 - 1), .none⟩,
  ⟨0x06, 1, .u16, .ro, 0, 0, 0, 65535, .none⟩,
  ⟨0x07, 1, .u16, .ro, 0, 0, 0, 65535, .none⟩]⟩
/-- 1040h, 1 item(s). -/
def blk1040 : Block := ⟨0x1040, 1, [
  ⟨0x01, 1, .u32, .ro, 0, 0, 0, 4294967295, .none⟩,
  ⟨0x02, 1, .u16, .ro, 0, 0, 0, 65535, .none⟩]⟩
/-- 2000h, 1 item(s). -/
def blk2000 : Block := ⟨0x2000, 1, [
  ⟨0x01, 12, .u8, .ro, 1, 0, 0, 255, .none⟩]⟩
/-- 2010h, 1 item(s). -/
def blk2010 : Block := ⟨0x2010, 1, [
  ⟨0x01, 1, .u32, .ro, 0, 0, 0, 4294967295, .none⟩,
  ⟨0x02, 1, .u64, .ro, 0, 0, 0, 18446744073709551615, .none⟩,
  ⟨0x03, 1, .u8, .ro, 0, 0, 0, 255, .none⟩,
  ⟨0x04, 1, .u16, .rws, 4864, 0, 0, 65535, .net⟩,
  ⟨0x05, 1, .u32, .rws, 0, 0, 0, 999999, .net⟩,
  ⟨0x06, 1, .u8, .ro, 0, 0, 0, 255, .none⟩,
  ⟨0x07, 1, .i32, .ro, 0, 0, -2147483648, 2147483647, .none⟩,
  ⟨0x08, 1, .u32, .ro, 0, 0, 0, 4294967295, .none⟩,
  ⟨0x09, 1, .u8, .rws, 0, 0, 0, 127, .net⟩,
  ⟨0x0A, 1, .u8, .rws, 0, 0, 0, 2, .net⟩]⟩
/-- 2020h, 1 item(s). -/
def blk2020 : Block := ⟨0x2020, 1, [
  ⟨0x01, 1, .u32, .ro, 0, 0, 0, 4294967295, .none⟩]⟩
/-- 2030h, 1 item(s). -/
def blk2030 : Block := ⟨0x2030, 1, [
  ⟨0x01, 1, .u32, .ro, 0, 0, 0, 4294967295, .none⟩,
  ⟨0x02, 1, .u16, .ro, 0, 0, 0, 65535, .none⟩,
  ⟨0x03, 1, .u8, .ro, 64, 0, 0, 255, .none⟩,
  ⟨0x04, 1, .u32, .ro, 100000, 0, 0, 4294967295, .none⟩]⟩
/-- 2040h, 1 item(s). -/
def blk2040 : Block := ⟨0x2040, 1, [
  ⟨0x01, 1, .u32, .ro, 0, 0, 0, 4294967295, .none⟩,
  ⟨0x02, 1, .u8, .ro, 0, 0, 0, 255, .none⟩,
  ⟨0x03, 1, .u32, .ro, 0, 0, 0, 4294967295, .none⟩,
  ⟨0x04, 1, .u16, .ro, 0, 0, 0, 65535, .none⟩,
  ⟨0x05, 1, .u8, .ro, 0, 0, 0, 255, .none⟩]⟩
/-- 2050h, 1 item(s). -/
def blk2050 : Block := ⟨0x2050, 1, [
  ⟨0x01, 1, .u16, .ro, 8190, 0, 0, 65535, .none⟩,
  ⟨0x02, 1, .u16, .wo, 0, 0, 0, 65535, .none⟩,
  ⟨0x03, 1, .u16, .wo, 0, 0, 0, 65535, .none⟩,
  ⟨0x04, 1, .u16, .rws, 0, 0, 0, 500, .place⟩,
  ⟨0x05, 1, .u16, .ro, 0, 0, 0, 65535, .none⟩,
  ⟨0x06, 1, .u8, .ro, 0, 0, 0, 255, .none⟩]⟩
/-- 2060h, 1 item(s). -/
def blk2060 : Block := ⟨0x2060, 1, [
  ⟨0x01, 1, .u8, .ro, 1, 0, 0, 255, .none⟩,
  ⟨0x02, 1, .u8, .ro, 0, 0, 0, 255, .none⟩,
  ⟨0x03, 1, .u32, .ro, 0, 0, 0, 4294967295, .none⟩,
  ⟨0x04, 1, .u8, .ro, 0, 0, 0, 255, .none⟩,
  ⟨0x05, 1, .u8, .ro, 0, 0, 0, 255, .none⟩,
  ⟨0x06, 1, .bool, .ro, 0, 0, 0, 1, .none⟩,
  ⟨0x07, 1, .u32, .ro, 0, 0, 0, 4294967295, .none⟩]⟩
/-- 2070h, 1 item(s). -/
def blk2070 : Block := ⟨0x2070, 1, [
  ⟨0x01, 1, .u16, .wo, 0, 0, 0, 65535, .none⟩]⟩
/-- 2080h, 1 item(s). -/
def blk2080 : Block := ⟨0x2080, 1, [
  ⟨0x01, 1, .u8, .ro, 0, 0, 0, 255, .none⟩,
  ⟨0x02, 1, .u16, .ro, 0, 0, 0, 65535, .none⟩,
  ⟨0x03, 1, .u16, .ro, 0, 0, 0, 65535, .none⟩]⟩
/-- 2090h, 1 item(s). -/
def blk2090 : Block := ⟨0x2090, 1, [
  ⟨0x01, 1, .u8, (.rwl 18), 50, 0, 0, 255, .none⟩,
  ⟨0x02, 1, .u8, .ro, 50, 0, 0, 255, .none⟩,
  ⟨0x03, 1, .u32, .ro, 0, 0, 0, 4294967295, .none⟩]⟩
/-- 2100h, 268 item(s). -/
def blk2100 : Block := ⟨0x2100, 268, [
  ⟨0x01, 1, .u8, .wo, 0, 0, 0, 255, .none⟩,
  ⟨0x02, 1, .bool, .rw, 0, 0, 0, 1, .none⟩,
  ⟨0x03, 1, .u64, .ro, 0, 0, 0, 18446744073709551615, .none⟩,
  ⟨0x04, 1, .u32, .ro, 0, 0, 0, 4294967295, .none⟩,
  ⟨0x05, 1, .bool, .ro, 0, 0, 0, 1, .none⟩,
  ⟨0x06, 1, .u32, .ro, 0, 0, 0, 4294967295, .none⟩]⟩
/-- 2800h, 1 item(s). -/
def blk2800 : Block := ⟨0x2800, 1, [
  ⟨0x01, 1, .u8, .rws, 0, 0, 0, 1, .place⟩,
  ⟨0x02, 1, .i32, .rws, 0, 0, -2147483648, 2147483647, .place⟩,
  ⟨0x03, 1, .i32, .rws, 0, 0, -2147483648, 2147483647, .place⟩,
  ⟨0x04, 1, .u16, .rws, 31130, 0, 16384, 32768, .place⟩,
  ⟨0x05, 1, .i32, .rws, 50000, 0, 0, 2000000, .place⟩,
  ⟨0x06, 1, .i32, .rws, 20000, 0, 0, 2000000, .place⟩,
  ⟨0x07, 1, .i32, .rws, 2, 0, 0, 1000, .place⟩,
  ⟨0x08, 1, .i16, .rws, 1500, 0, -32768, 32767, .place⟩,
  ⟨0x09, 1, .i32, .rws, 10, 0, 0, 1000, .place⟩,
  ⟨0x0A, 1, .u32, .rws, 2000000, 0, 2000000, 60000000, .place⟩,
  ⟨0x0B, 1, .u8, .rws, 4, 0, 1, 255, .place⟩,
  ⟨0x0C, 1, .u8, .rws, 12, 0, 1, 255, .place⟩,
  ⟨0x0D, 1, .i32, .rws, 1000, 0, 1, 100000, .place⟩,
  ⟨0x0E, 1, .bool, .rws, 0, 0, 0, 1, .place⟩,
  ⟨0x0F, 1, .u32, .rws, 60000000, 0, 1000000, 3600000000, .place⟩]⟩
/-- 2810h, 1 item(s). -/
def blk2810 : Block := ⟨0x2810, 1, [
  ⟨0x01, 1, .i32, .ro, 0, 0, -2147483648, 2147483647, .none⟩,
  ⟨0x02, 1, .i32, .ro, 0, 0, -2147483648, 2147483647, .none⟩,
  ⟨0x03, 1, .i32, .ro, 0, 0, -2147483648, 2147483647, .none⟩,
  ⟨0x04, 1, .i32, .ro, 0, 0, -2147483648, 2147483647, .none⟩,
  ⟨0x05, 1, .i32, .ro, 0, 0, -2147483648, 2147483647, .none⟩,
  ⟨0x06, 1, .u8, .ro, 3, 0, 0, 255, .none⟩,
  ⟨0x07, 1, .u32, .ro, 0, 0, 0, 4294967295, .none⟩,
  ⟨0x08, 1, .u32, .ro, 0, 0, 0, 4294967295, .none⟩,
  ⟨0x09, 1, .u8, .ro, 0, 0, 0, 255, .none⟩]⟩
/-- 2820h, 1 item(s). -/
def blk2820 : Block := ⟨0x2820, 1, [
  ⟨0x01, 12, .u32, .ro, 4294967040, 0, 0, 4294967295, .none⟩]⟩
/-- 2840h, 48 item(s). -/
def blk2840 : Block := ⟨0x2840, 48, [
  ⟨0x01, 1, .u8, .rws, 0, 0, 0, 2, .place⟩,
  ⟨0x02, 1, .u8, .rws, 255, 0, 0, 255, .place⟩,
  ⟨0x03, 8, .u8, .rws, 255, 0, 0, 255, .pm⟩,
  ⟨0x0B, 1, .i32, .rws, 400000, 0, 4000, 600000, .pm⟩,
  ⟨0x0C, 1, .bool, .rws, 0, 0, 0, 1, .pm⟩,
  ⟨0x0D, 1, .u16, .ro, 32768, 0, 0, 65535, .none⟩,
  ⟨0x10, 1, .u8, .ro, 4, 0, 0, 255, .none⟩,
  ⟨0x11, 1, .u8, .ro, 255, 0, 0, 255, .none⟩,
  ⟨0x12, 1, .u8, .ro, 0, 0, 0, 255, .none⟩,
  ⟨0x13, 1, .u8, .ro, 0, 0, 0, 255, .none⟩,
  ⟨0x14, 1, .u8, .ro, 0, 0, 0, 255, .none⟩,
  ⟨0x15, 1, .u8, .wo, 0, 0, 0, 255, .none⟩,
  ⟨0x16, 1, .i32, .ro, 0, 0, -2147483648, 2147483647, .none⟩,
  ⟨0x17, 1, .u16, .ro, 0, 0, 0, 65535, .none⟩,
  ⟨0x18, 1, .i16, .ro, 0, 0, -32768, 32767, .none⟩,
  ⟨0x19, 1, .u32, .ro, 0, 0, 0, 4294967295, .none⟩]⟩
/-- 3000h, 192 item(s). -/
def blk3000 : Block := ⟨0x3000, 192, [
  ⟨0x01, 1, .bool, .rws, 0, 0, 0, 1, .ch⟩,
  ⟨0x02, 1, .u16, .rws, 100, 0, 20, 500, .ch⟩,
  ⟨0x03, 1, .u16, .rws, 400, 0, 0, 4000, .ch⟩,
  ⟨0x04, 1, .u16, .rws, 200, 0, 0, 1600, .ch⟩,
  ⟨0x05, 1, .u8, .rws, 0, 0, 0, 1, .ch⟩,
  ⟨0x06, 1, .i32, .rws, 0, 0, 0, 268435456, .ch⟩,
  ⟨0x07, 1, .i32, .rws, 200000, 0, 10000, 1000000, .ch⟩,
  ⟨0x08, 1, .i32, .rws, 0, 0, -33554432, 33554432, .ch⟩,
  ⟨0x09, 1, .i32, .rws, 268435456, 0, 134217728, 536870912, .ch⟩,
  ⟨0x0A, 1, .u8, .rws, 16, 0, 8, 64, .ch⟩,
  ⟨0x0B, 1, .i32, .rws, 150000, 0, -2147483648, 2147483647, .ch⟩]⟩
/-- 3100h, 192 item(s). -/
def blk3100 : Block := ⟨0x3100, 192, [
  ⟨0x01, 1, .u8, .ro, 0, 0, 0, 255, .none⟩,
  ⟨0x02, 1, .i32, .ro, 0, 0, -2147483648, 2147483647, .none⟩,
  ⟨0x03, 1, .i32, .ro, 0, 0, -2147483648, 2147483647, .none⟩,
  ⟨0x04, 1, .i32, .ro, 0, 0, -2147483648, 2147483647, .none⟩,
  ⟨0x05, 1, .u8, .ro, 255, 0, 0, 255, .none⟩,
  ⟨0x06, 1, .u8, .ro, 0, 0, 0, 255, .none⟩,
  ⟨0x07, 1, .u8, .ro, 0, 0, 0, 255, .none⟩,
  ⟨0x08, 1, .u8, .ro, 0, 0, 0, 255, .none⟩,
  ⟨0x09, 1, .u8, .ro, 0, 0, 0, 255, .none⟩,
  ⟨0x0A, 1, .u16, .ro, 400, 0, 0, 65535, .none⟩,
  ⟨0x0B, 1, .u32, .ro, 0, 0, 0, 4294967295, .none⟩,
  ⟨0x0C, 1, .u32, .ro, 0, 0, 0, 4294967295, .none⟩,
  ⟨0x0D, 1, .u8, .ro, 0, 0, 0, 255, .none⟩,
  ⟨0x10, 1, .u8, .ro, 0, 0, 0, 255, .none⟩,
  ⟨0x11, 1, .u8, .ro, 0, 0, 0, 255, .none⟩,
  ⟨0x12, 1, .u32, .ro, 0, 0, 0, 4294967295, .none⟩,
  ⟨0x13, 1, .u8, .ro, 0, 0, 0, 255, .none⟩,
  ⟨0x14, 1, .u8, .ro, 0, 0, 0, 255, .none⟩]⟩
/-- 3200h, 192 item(s). -/
def blk3200 : Block := ⟨0x3200, 192, [
  ⟨0x01, 1, .u8, .rws, 0, 0, 0, 1, .ch⟩,
  ⟨0x02, 1, .u16, .rws, 32, 0, 16, 256, .ch⟩,
  ⟨0x10, 1, .i32, .rws, 0, 0, -2147483648, 2147483647, .ch⟩,
  ⟨0x11, 1, .i32, .rws, 0, 0, -2147483648, 2147483647, .ch⟩,
  ⟨0x12, 1, .i32, .rws, 0, 0, -2147483648, 2147483647, .ch⟩,
  ⟨0x13, 1, .i32, .rws, 0, 0, -2147483648, 2147483647, .ch⟩,
  ⟨0x14, 1, .i32, .rws, 0, 0, -2147483648, 2147483647, .ch⟩,
  ⟨0x15, 1, .i32, .rws, 0, 0, -2147483648, 2147483647, .ch⟩,
  ⟨0x16, 1, .i32, .rws, 0, 0, -2147483648, 2147483647, .ch⟩,
  ⟨0x17, 1, .i32, .rws, 0, 0, -2147483648, 2147483647, .ch⟩,
  ⟨0x18, 1, .i32, .rws, 0, 0, -2147483648, 2147483647, .ch⟩,
  ⟨0x19, 1, .i32, .rws, 0, 0, -2147483648, 2147483647, .ch⟩,
  ⟨0x1A, 1, .i32, .rws, 0, 0, -2147483648, 2147483647, .ch⟩,
  ⟨0x1B, 1, .u32, .rws, 0, 0, 0, 4294967295, .ch⟩,
  ⟨0x20, 1, .i32, .rws, 0, 0, -2147483648, 2147483647, .ch⟩,
  ⟨0x21, 1, .i32, .rws, 0, 0, -2147483648, 2147483647, .ch⟩,
  ⟨0x22, 1, .i32, .rws, 0, 0, -2147483648, 2147483647, .ch⟩,
  ⟨0x23, 1, .i32, .rws, 0, 0, -2147483648, 2147483647, .ch⟩,
  ⟨0x24, 1, .i32, .rws, 0, 0, -2147483648, 2147483647, .ch⟩,
  ⟨0x25, 1, .i32, .rws, 0, 0, -2147483648, 2147483647, .ch⟩,
  ⟨0x26, 1, .i32, .rws, 0, 0, -2147483648, 2147483647, .ch⟩,
  ⟨0x27, 1, .i32, .rws, 0, 0, -2147483648, 2147483647, .ch⟩,
  ⟨0x28, 1, .i32, .rws, 0, 0, -2147483648, 2147483647, .ch⟩,
  ⟨0x29, 1, .i32, .rws, 0, 0, -2147483648, 2147483647, .ch⟩,
  ⟨0x2A, 1, .i32, .rws, 0, 0, -2147483648, 2147483647, .ch⟩,
  ⟨0x2B, 1, .u32, .rws, 0, 0, 0, 4294967295, .ch⟩]⟩
/-- 3400h, 48 item(s). -/
def blk3400 : Block := ⟨0x3400, 48, [
  ⟨0x01, 1, .u32, .rws, 0, 0, 0, 4294967295, .pm⟩,
  ⟨0x02, 1, .bool, .rws, 1, 0, 0, 1, .pm⟩,
  ⟨0x03, 1, .bool, .rws, 1, 0, 0, 1, .pm⟩,
  ⟨0x04, 1, .u8, .rws, 16, 0, 1, 255, .pm⟩,
  ⟨0x05, 1, .u32, .rws, 10000, 0, 1000, 1000000, .pm⟩,
  ⟨0x06, 1, .u8, .rws, 3, 0, 1, 15, .pm⟩,
  ⟨0x07, 1, .u32, .rws, 10000000, 0, 1000000, 3600000000, .pm⟩,
  ⟨0x08, 1, .u8, .rws, 255, 0, 0, 255, .pm⟩,
  ⟨0x09, 1, .i16, .rws, 9500, 0, 4000, 15000, .pm⟩,
  ⟨0x0A, 1, .i16, .rws, 8500, 0, 2000, 32767, .pm⟩,
  ⟨0x0B, 1, .u32, .rws, 60000000, 0, 1000000, 3600000000, .pm⟩,
  ⟨0x0C, 1, .i32, .rws, 1600000, 0, 100000, 2147483647, .pm⟩,
  ⟨0x0D, 1, .u8, .wo, 0, 0, 0, 255, .none⟩,
  ⟨0x10, 1, .u32, .ro, 0, 0, 0, 4294967295, .none⟩,
  ⟨0x11, 1, .u32, .ro, 0, 0, 0, 4294967295, .none⟩,
  ⟨0x12, 1, .bool, .ro, 0, 0, 0, 1, .none⟩,
  ⟨0x13, 1, .u8, .ro, 0, 0, 0, 255, .none⟩,
  ⟨0x14, 1, .i16, .ro, 0, 0, -32768, 32767, .none⟩,
  ⟨0x15, 1, .u32, .ro, 0, 0, 0, 4294967295, .none⟩]⟩
/-- 3480h, 48 item(s). -/
def blk3480 : Block := ⟨0x3480, 48, [
  ⟨0x01, 1, .u8, .rws, 0, 0, 0, 1, .pm⟩,
  ⟨0x02, 1, .i32, .rws, 1000000, 0, 0, 1500000, .pm⟩,
  ⟨0x03, 1, .i32, .rws, 1000000, 0, 100000, 1500000, .pm⟩,
  ⟨0x04, 1, .i32, .rws, 2000000, 0, -2147483648, 2147483647, .pm⟩,
  ⟨0x05, 1, .u16, .rws, 32, 0, 16, 256, .pm⟩,
  ⟨0x06, 1, .i32, .rws, 2000, 0, 1, 1000000, .pm⟩,
  ⟨0x07, 1, .i32, .rws, 10000, 0, 1000, 50000, .pm⟩,
  ⟨0x10, 1, .i32, .ro, 0, 0, -2147483648, 2147483647, .none⟩,
  ⟨0x11, 1, .i32, .ro, 0, 0, -2147483648, 2147483647, .none⟩,
  ⟨0x12, 1, .u8, .ro, 0, 0, 0, 255, .none⟩]⟩
/-- 34C0h, 48 item(s). -/
def blk34C0 : Block := ⟨0x34C0, 48, [
  ⟨0x01, 8, .octet 64, .ro, 0, 0, 0, (256 ^ 64 - 1), .none⟩,
  ⟨0x09, 1, .u8, .ro, 255, 0, 0, 255, .none⟩,
  ⟨0x0A, 1, .u32, .ro, 0, 0, 0, 4294967295, .none⟩,
  ⟨0x0B, 1, .u32, .ro, 0, 0, 0, 4294967295, .none⟩,
  ⟨0x0C, 1, .u8, .ro, 0, 0, 0, 255, .none⟩,
  ⟨0x0D, 1, .u16, (.rwl 18), 0, 0, 0, 65535, .none⟩]⟩
/-- 3600h, 24 item(s). -/
def blk3600 : Block := ⟨0x3600, 24, [
  ⟨0x01, 1, .i32, .ro, 0, 0, -2147483648, 2147483647, .none⟩,
  ⟨0x02, 1, .i32, .ro, 0, 0, -2147483648, 2147483647, .none⟩,
  ⟨0x03, 1, .i32, .ro, 0, 0, -2147483648, 2147483647, .none⟩,
  ⟨0x04, 1, .i32, .ro, 0, 0, -2147483648, 2147483647, .none⟩,
  ⟨0x05, 1, .i32, .ro, 0, 0, -2147483648, 2147483647, .none⟩,
  ⟨0x06, 1, .i32, .rws, 0, 0, -2147483648, 2147483647, .out⟩,
  ⟨0x07, 1, .u8, .rws, 3, 0, 0, 7, .out⟩,
  ⟨0x08, 1, .u32, .rws, 20000, 0, 0, 4294967295, .out⟩,
  ⟨0x09, 1, .i32, .ro, 0, 0, -2147483648, 2147483647, .none⟩,
  ⟨0x0A, 1, .u64, .ro, 0, 0, 0, 18446744073709551615, .none⟩,
  ⟨0x0B, 1, .u32, .ro, 0, 0, 0, 4294967295, .none⟩,
  ⟨0x0C, 1, .u8, .rws, 40, 1, 0, 63, .out⟩,
  ⟨0x10, 1, .i32, .rws, 1000000, 0, -2147483648, 2147483647, .out⟩,
  ⟨0x11, 1, .u8, .ro, 0, 0, 0, 255, .none⟩,
  ⟨0x12, 1, .u8, .ro, 0, 0, 0, 255, .none⟩,
  ⟨0x13, 1, .u32, .rws, 2000000, 0, 500000, 10000000, .out⟩,
  ⟨0x14, 1, .u16, .rws, 500, 0, 100, 1000, .out⟩,
  ⟨0x15, 1, .u8, .ro, 0, 0, 0, 255, .none⟩,
  ⟨0x16, 1, .i32, .rws, 10000, 0, 1000, 20000, .out⟩,
  ⟨0x17, 1, .i32, .rws, 2000, 0, 500, 2000, .out⟩,
  ⟨0x18, 1, .i32, .rws, 100000, 0, 10000, 1000000, .out⟩,
  ⟨0x19, 1, .i32, .rws, 200000, 0, 100000, 500000, .out⟩,
  ⟨0x1A, 1, .u32, .rws, 0, 0, 0, 3600000000, .out⟩,
  ⟨0x1B, 1, .u8, .wo, 0, 0, 0, 255, .none⟩,
  ⟨0x1C, 1, .u8, .wo, 0, 0, 0, 255, .none⟩,
  ⟨0x1D, 1, .u32, .ro, 0, 0, 0, 4294967295, .none⟩,
  ⟨0x1E, 1, .u32, .ro, 0, 0, 0, 4294967295, .none⟩,
  ⟨0x1F, 1, .u8, .ro, 0, 0, 0, 255, .none⟩,
  ⟨0x20, 1, .u8, .rws, 8, 0, 0, 255, .out⟩,
  ⟨0x21, 1, .i32, .rws, 2000000, 0, -2147483648, 2147483647, .out⟩,
  ⟨0x22, 1, .i32, .rws, 4000000, 0, -2147483648, 2147483647, .out⟩,
  ⟨0x23, 1, .u16, .rws, 32, 0, 16, 256, .out⟩,
  ⟨0x24, 1, .i32, .rws, 0, 0, -2147483648, 2147483647, .out⟩,
  ⟨0x25, 1, .i32, .rws, 0, 0, -2147483648, 2147483647, .out⟩,
  ⟨0x26, 1, .i32, .rws, 0, 0, -2147483648, 2147483647, .out⟩,
  ⟨0x27, 1, .i32, .rws, 0, 0, -2147483648, 2147483647, .out⟩,
  ⟨0x28, 1, .i32, .rws, 0, 0, -2147483648, 2147483647, .out⟩,
  ⟨0x29, 1, .i32, .rws, 0, 0, -2147483648, 2147483647, .out⟩,
  ⟨0x2A, 1, .i32, .rws, 0, 0, -2147483648, 2147483647, .out⟩,
  ⟨0x2B, 1, .i32, .rws, 0, 0, -2147483648, 0, .out⟩,
  ⟨0x2C, 1, .i32, .rws, 0, 0, 0, 2147483647, .out⟩,
  ⟨0x2D, 1, .i32, .rws, 0, 0, -2147483648, 2147483647, .out⟩,
  ⟨0x2E, 1, .i32, .rws, 0, 0, -2147483648, 2147483647, .out⟩,
  ⟨0x2F, 1, .u32, .rws, 0, 0, 0, 4294967295, .out⟩,
  ⟨0x30, 1, .i32, .rws, 20000, 0, 0, 1000000, .out⟩,
  ⟨0x31, 1, .i32, .rws, 2000, 0, 0, 1000000, .out⟩,
  ⟨0x32, 1, .i32, .rws, 500, 0, 0, 1000000, .out⟩,
  ⟨0x33, 1, .i32, .rws, 100000, 0, 0, 4000000, .out⟩,
  ⟨0x34, 1, .i32, .rws, 20000, 0, 0, 4000000, .out⟩,
  ⟨0x35, 1, .i32, .rws, 10000, 0, 0, 4000000, .out⟩,
  ⟨0x38, 1, .u8, .ro, 0, 0, 0, 255, .none⟩,
  ⟨0x39, 1, .i32, .ro, 0, 0, -2147483648, 2147483647, .none⟩,
  ⟨0x3A, 1, .i32, .ro, 0, 0, -2147483648, 2147483647, .none⟩,
  ⟨0x3B, 1, .i32, .ro, 0, 0, -2147483648, 2147483647, .none⟩,
  ⟨0x3C, 1, .i32, .ro, 0, 0, -2147483648, 2147483647, .none⟩,
  ⟨0x3D, 1, .i32, .ro, 0, 0, -2147483648, 2147483647, .none⟩,
  ⟨0x3E, 1, .u8, .ro, 0, 0, 0, 255, .none⟩,
  ⟨0x3F, 1, .u8, .ro, 0, 0, 0, 255, .none⟩,
  ⟨0x40, 1, .u8, .rws, 2, 0, 0, 2, .out⟩,
  ⟨0x41, 1, .u16, .rws, 13107, 0, 3277, 16384, .out⟩,
  ⟨0x42, 1, .u16, .rws, 26214, 0, 0, 32767, .out⟩,
  ⟨0x43, 1, .u32, .rws, 200000, 0, 10000, 60000000, .out⟩,
  ⟨0x44, 1, .u32, .rws, 500000, 0, 10000, 60000000, .out⟩,
  ⟨0x45, 1, .u16, .rws, 983, 0, 33, 3277, .out⟩,
  ⟨0x46, 1, .u16, .rws, 1966, 0, 0, 6554, .out⟩,
  ⟨0x47, 1, .u8, .rws, 8, 0, 1, 64, .out⟩,
  ⟨0x48, 1, .u8, .rws, 8, 0, 0, 255, .out⟩,
  ⟨0x49, 1, .u8, .ro, 0, 0, 0, 255, .none⟩,
  ⟨0x4A, 1, .u8, .ro, 0, 0, 0, 255, .none⟩,
  ⟨0x4B, 1, .u32, .ro, 0, 0, 0, 4294967295, .none⟩]⟩
/-- 3700h, 4 item(s). -/
def blk3700 : Block := ⟨0x3700, 4, [
  ⟨0x01, 1, .bool, .rws, 0, 0, 0, 1, .place⟩,
  ⟨0x02, 1, .u32, .rws, 0, 0, 0, 4294967295, .place⟩,
  ⟨0x03, 1, .u8, .ro, 0, 0, 0, 255, .none⟩,
  ⟨0x04, 1, .u32, .ro, 0, 0, 0, 4294967295, .none⟩,
  ⟨0x05, 1, .u32, .ro, 0, 0, 0, 4294967295, .none⟩,
  ⟨0x06, 1, .u32, .ro, 0, 0, 0, 4294967295, .none⟩,
  ⟨0x07, 1, .u32, .ro, 0, 0, 0, 4294967295, .none⟩,
  ⟨0x08, 1, .u32, .ro, 0, 0, 0, 4294967295, .none⟩,
  ⟨0x09, 1, .u8, .rws, 36, 1, 0, 63, .place⟩]⟩
/-- 3720h, 128 item(s). -/
def blk3720 : Block := ⟨0x3720, 128, [
  ⟨0x01, 1, .u16, .ro, 0, 0, 0, 65535, .none⟩,
  ⟨0x02, 1, .u16, .ro, 0, 0, 0, 65535, .none⟩,
  ⟨0x03, 1, .u8, .ro, 0, 0, 0, 255, .none⟩,
  ⟨0x04, 16, .u8, .ro, 0, 0, 0, 255, .none⟩,
  ⟨0x14, 1, .u16, .rws, 0, 0, 0, 65535, .place⟩]⟩
/-- 3800h, 24 item(s). -/
def blk3800 : Block := ⟨0x3800, 24, [
  ⟨0x01, 1, .u32, .rws, 25000, 0, 0, 4294967295, .met⟩,
  ⟨0x02, 1, .u32, .rws, 2000000, 0, 1000000, 20000000, .met⟩,
  ⟨0x03, 1, .i32, .rws, 1000000, 0, 100000, 4000000, .met⟩,
  ⟨0x0F, 1, .octet 32, .rw, 0, 0, 0, (256 ^ 32 - 1), .none⟩,
  ⟨0x10, 1, .u16, .ro, 0, 0, 0, 65535, .none⟩,
  ⟨0x11, 1, .i32, .ro, 0, 0, -2147483648, 2147483647, .none⟩,
  ⟨0x12, 1, .i32, .ro, 0, 0, -2147483648, 2147483647, .none⟩,
  ⟨0x13, 1, .i32, .ro, 0, 0, -2147483648, 2147483647, .none⟩,
  ⟨0x14, 1, .u64, .ro, 0, 0, 0, 18446744073709551615, .none⟩,
  ⟨0x15, 1, .u64, .ro, 0, 0, 0, 18446744073709551615, .none⟩,
  ⟨0x16, 1, .u64, .ro, 0, 0, 0, 18446744073709551615, .none⟩,
  ⟨0x17, 1, .u64, .ro, 0, 0, 0, 18446744073709551615, .none⟩,
  ⟨0x18, 1, .u8, .ro, 0, 0, 0, 255, .none⟩,
  ⟨0x19, 1, .u32, .ro, 0, 0, 0, 4294967295, .none⟩,
  ⟨0x1A, 1, .i32, .ro, 0, 0, -2147483648, 2147483647, .none⟩]⟩
/-- 3840h, 2 item(s). -/
def blk3840 : Block := ⟨0x3840, 2, [
  ⟨0x01, 1, .u8, .rws, 0, 0, 0, 1, .met⟩,
  ⟨0x02, 1, .u32, .rws, 4000, 0, 1, 10000000, .met⟩,
  ⟨0x03, 1, .u32, .rws, 100000, 0, 1000, 10000000, .met⟩,
  ⟨0x04, 1, .u32, .rws, 1000000, 0, 1000, 4000000000, .met⟩,
  ⟨0x05, 1, .i32, .rws, 10000000, 0, 1, 2000000000, .met⟩,
  ⟨0x06, 1, .i32, .rws, 230000, 0, -2147483648, 2147483647, .met⟩,
  ⟨0x10, 1, .u16, .ro, 0, 0, 0, 65535, .none⟩,
  ⟨0x11, 1, .u32, .ro, 0, 0, 0, 4294967295, .none⟩,
  ⟨0x12, 1, .i32, .ro, 0, 0, -2147483648, 2147483647, .none⟩,
  ⟨0x13, 1, .i32, .ro, 0, 0, -2147483648, 2147483647, .none⟩,
  ⟨0x14, 1, .i32, .ro, 0, 0, -2147483648, 2147483647, .none⟩,
  ⟨0x15, 1, .i32, .ro, 0, 0, -2147483648, 2147483647, .none⟩,
  ⟨0x16, 1, .i32, .ro, 0, 0, -2147483648, 2147483647, .none⟩,
  ⟨0x17, 1, .i16, .ro, 0, 0, -32768, 32767, .none⟩,
  ⟨0x18, 1, .u64, .ro, 0, 0, 0, 18446744073709551615, .none⟩,
  ⟨0x19, 1, .u64, .ro, 0, 0, 0, 18446744073709551615, .none⟩,
  ⟨0x1A, 1, .u64, .ro, 0, 0, 0, 18446744073709551615, .none⟩,
  ⟨0x1B, 1, .u64, .ro, 0, 0, 0, 18446744073709551615, .none⟩,
  ⟨0x1C, 4, .u64, .ro, 0, 0, 0, 18446744073709551615, .none⟩]⟩
/-- 3848h, 8 item(s). -/
def blk3848 : Block := ⟨0x3848, 8, [
  ⟨0x01, 1, .i32, .ro, 0, 0, -2147483648, 2147483647, .none⟩,
  ⟨0x02, 1, .i32, .ro, 0, 0, -2147483648, 2147483647, .none⟩,
  ⟨0x03, 1, .i32, .ro, 0, 0, -2147483648, 2147483647, .none⟩,
  ⟨0x04, 1, .i32, .ro, 0, 0, -2147483648, 2147483647, .none⟩,
  ⟨0x05, 1, .i32, .ro, 0, 0, -2147483648, 2147483647, .none⟩,
  ⟨0x06, 1, .u16, .ro, 0, 0, 0, 65535, .none⟩,
  ⟨0x07, 1, .u16, .ro, 0, 0, 0, 65535, .none⟩]⟩
/-- 3880h, 8 item(s). -/
def blk3880 : Block := ⟨0x3880, 8, [
  ⟨0x01, 1, .u8, .rws, 255, 0, 0, 255, .met⟩,
  ⟨0x02, 1, .u8, .rws, 0, 0, 0, 5, .met⟩,
  ⟨0x03, 1, .u16, .rws, 1000, 0, 0, 65535, .met⟩,
  ⟨0x04, 1, .u32, .rws, 30000, 0, 10000, 100000, .met⟩,
  ⟨0x05, 1, .u32, .ro, 0, 0, 0, 4294967295, .none⟩,
  ⟨0x06, 1, .u32, .ro, 0, 0, 0, 4294967295, .none⟩,
  ⟨0x07, 1, .bool, .ro, 0, 0, 0, 1, .none⟩]⟩
/-- 3A00h, 1 item(s). -/
def blk3A00 : Block := ⟨0x3A00, 1, [
  ⟨0x01, 1, .u8, .rws, 10, 0, 0, 255, .met⟩,
  ⟨0x02, 1, .u8, .rws, 0, 0, 0, 5, .met⟩,
  ⟨0x03, 1, .u32, .rws, 62500, 0, 25000, 250000, .met⟩,
  ⟨0x04, 1, .u8, .rws, 3, 0, 1, 3, .met⟩,
  ⟨0x05, 1, .u32, .ro, 0, 0, 0, 4294967295, .none⟩,
  ⟨0x06, 1, .u64, .ro, 0, 0, 0, 18446744073709551615, .none⟩,
  ⟨0x07, 1, .u32, .ro, 0, 0, 0, 4294967295, .none⟩,
  ⟨0x08, 1, .u8, .ro, 0, 0, 0, 255, .none⟩,
  ⟨0x09, 1, .i32, .ro, 0, 0, -2147483648, 2147483647, .none⟩,
  ⟨0x0A, 1, .u8, .ro, 0, 0, 0, 255, .none⟩,
  ⟨0x0B, 1, .u8, .ro, 0, 0, 0, 255, .none⟩,
  ⟨0x0C, 1, .u16, (.rwl 16), 0, 0, 0, 65535, .none⟩,
  ⟨0x0D, 1, .u64, .ro, 0, 0, 0, 18446744073709551615, .none⟩,
  ⟨0x0E, 1, .u32, .ro, 0, 0, 0, 4294967295, .none⟩]⟩
/-- 3A10h, 1 item(s). -/
def blk3A10 : Block := ⟨0x3A10, 1, [
  ⟨0x01, 1, .u32, .ro, 0, 0, 0, 4294967295, .none⟩,
  ⟨0x02, 1, .u32, .ro, 0, 0, 0, 4294967295, .none⟩,
  ⟨0x03, 1, .u32, .rw, 0, 0, 0, 4294967295, .none⟩,
  ⟨0x04, 1, .u16, .ro, 896, 0, 0, 65535, .none⟩,
  ⟨0x05, 1, .u32, .rw, 0, 0, 0, 4294967295, .none⟩,
  ⟨0x06, 1, .octet 256, .ro, 0, 0, 0, (256 ^ 256 - 1), .none⟩,
  ⟨0x07, 1, .u8, .wo, 0, 0, 0, 255, .none⟩,
  ⟨0x08, 1, .u32, .ro, 0, 0, 0, 4294967295, .none⟩]⟩
/-- 3A20h, 1 item(s). -/
def blk3A20 : Block := ⟨0x3A20, 1, [
  ⟨0x01, 1, .u32, .ro, 0, 0, 0, 4294967295, .none⟩,
  ⟨0x02, 1, .u32, .ro, 0, 0, 0, 4294967295, .none⟩,
  ⟨0x03, 1, .octet 48, .ro, 0, 0, 0, (256 ^ 48 - 1), .none⟩,
  ⟨0x04, 1, .octet 97, .ro, 0, 0, 0, (256 ^ 97 - 1), .none⟩,
  ⟨0x05, 1, .octet 8, .ro, 0, 0, 0, (256 ^ 8 - 1), .none⟩,
  ⟨0x06, 1, .u8, .ro, 0, 0, 0, 255, .none⟩]⟩
/-- 3C00h, 1 item(s). -/
def blk3C00 : Block := ⟨0x3C00, 1, [
  ⟨0x01, 1, .u8, .ro, 2, 0, 0, 255, .none⟩,
  ⟨0x02, 1, .u8, .ro, 2, 0, 0, 255, .none⟩,
  ⟨0x03, 1, .i16, .ro, 0, 0, -32768, 32767, .none⟩,
  ⟨0x04, 1, .u8, .ro, 0, 0, 0, 255, .none⟩,
  ⟨0x05, 1, .u32, .ro, 0, 0, 0, 4294967295, .none⟩,
  ⟨0x06, 1, .u32, .rws, 10000000, 0, 1000000, 600000000, .place⟩,
  ⟨0x07, 1, .u8, .rws, 35, 0, 0, 63, .place⟩]⟩
/-- 3C10h, 64 item(s). -/
def blk3C10 : Block := ⟨0x3C10, 64, [
  ⟨0x01, 1, .u8, .rws, 0, 0, 0, 4, .place⟩,
  ⟨0x02, 1, .u32, .rws, 10000, 0, 100, 1000000, .place⟩,
  ⟨0x03, 1, .u16, .rws, 3435, 0, 1000, 10000, .place⟩,
  ⟨0x04, 1, .i32, .rws, 0, 0, -2147483648, 2147483647, .place⟩,
  ⟨0x05, 1, .i32, .rws, 10000, 0, -2147483648, 2147483647, .place⟩,
  ⟨0x10, 1, .i32, .ro, 0, 0, -2147483648, 2147483647, .none⟩,
  ⟨0x11, 1, .i32, .ro, 0, 0, -2147483648, 2147483647, .none⟩,
  ⟨0x12, 1, .u8, .ro, 0, 0, 0, 255, .none⟩]⟩
/-- 3C60h, 1 item(s). -/
def blk3C60 : Block := ⟨0x3C60, 1, [
  ⟨0x01, 16, .i16, .ro, 0, 0, -32768, 32767, .none⟩]⟩
/-- 3C70h, 1 item(s). -/
def blk3C70 : Block := ⟨0x3C70, 1, [
  ⟨0x01, 24, .i32, .ro, 0, 0, -2147483648, 2147483647, .none⟩]⟩
/-- 3C80h, 48 item(s). -/
def blk3C80 : Block := ⟨0x3C80, 48, [
  ⟨0x01, 1, .i16, .rws, 8500, 0, 2000, 32767, .pm⟩,
  ⟨0x02, 1, .i16, .rws, 500, 0, 100, 2000, .pm⟩,
  ⟨0x03, 1, .u8, .ro, 0, 0, 0, 255, .none⟩]⟩
/-- 3D00h, 24 item(s). -/
def blk3D00 : Block := ⟨0x3D00, 24, [
  ⟨0x01, 1, .bool, .rws, 0, 0, 0, 1, .out⟩,
  ⟨0x02, 1, .u8, .rws, 255, 0, 0, 255, .out⟩,
  ⟨0x03, 1, .u8, .rws, 255, 0, 0, 255, .out⟩,
  ⟨0x04, 1, .i16, .rws, 4000, 0, -4000, 8500, .out⟩,
  ⟨0x05, 1, .u8, .rws, 255, 0, 0, 255, .out⟩,
  ⟨0x06, 1, .u8, .rws, 255, 0, 0, 255, .out⟩,
  ⟨0x07, 1, .u32, .rws, 300, 0, 1, 100000, .out⟩,
  ⟨0x08, 1, .u32, .rws, 5, 0, 0, 10000, .out⟩,
  ⟨0x09, 1, .u32, .rws, 2000, 0, 1, 1000000, .out⟩,
  ⟨0x0A, 1, .u32, .rws, 4000, 0, 1, 1000000, .out⟩,
  ⟨0x0B, 1, .u32, .rws, 1500, 0, 1, 1000000, .out⟩,
  ⟨0x0C, 1, .u32, .rws, 60000, 0, 1, 10000000, .out⟩,
  ⟨0x0D, 1, .u32, .rws, 4000, 0, 1, 10000000, .out⟩,
  ⟨0x0E, 1, .u32, .rws, 6000, 0, 1, 10000000, .out⟩,
  ⟨0x0F, 1, .u32, .rws, 5000, 0, 1, 10000000, .out⟩,
  ⟨0x10, 1, .u32, .rws, 3600, 0, 1000, 5000, .out⟩,
  ⟨0x11, 1, .i32, .rws, 0, 0, 0, 4000000, .out⟩,
  ⟨0x12, 1, .i16, .rws, 9000, 0, -32768, 32767, .out⟩,
  ⟨0x13, 1, .i16, .rws, 10500, 0, -32768, 32767, .out⟩,
  ⟨0x14, 1, .i16, .rws, 10000, 0, -32768, 32767, .out⟩,
  ⟨0x15, 1, .i16, .rws, 11500, 0, -32768, 32767, .out⟩,
  ⟨0x16, 1, .i16, .rws, 500, 0, 100, 2000, .out⟩,
  ⟨0x17, 1, .u16, .rws, 6554, 0, 0, 65535, .out⟩,
  ⟨0x18, 1, .i16, .rws, 1500, 0, 0, 5000, .out⟩,
  ⟨0x20, 1, .i16, .ro, 0, 0, -32768, 32767, .none⟩,
  ⟨0x21, 1, .i16, .ro, 0, 0, -32768, 32767, .none⟩,
  ⟨0x22, 1, .i16, .ro, 0, 0, -32768, 32767, .none⟩,
  ⟨0x23, 1, .i16, .ro, 0, 0, -32768, 32767, .none⟩,
  ⟨0x24, 1, .i16, .ro, 0, 0, -32768, 32767, .none⟩,
  ⟨0x25, 1, .u8, .ro, 0, 0, 0, 255, .none⟩,
  ⟨0x26, 1, .i32, .ro, 0, 0, -2147483648, 2147483647, .none⟩,
  ⟨0x27, 1, .u8, .ro, 0, 0, 0, 255, .none⟩]⟩
/-- 3D40h, 8 item(s). -/
def blk3D40 : Block := ⟨0x3D40, 8, [
  ⟨0x01, 1, .u32, .rws, 0, 0, 0, 4294967295, .place⟩,
  ⟨0x02, 1, .u8, .rws, 255, 0, 0, 255, .place⟩,
  ⟨0x03, 1, .u8, .rws, 255, 0, 0, 255, .place⟩,
  ⟨0x04, 1, .u8, .rws, 255, 0, 0, 255, .place⟩,
  ⟨0x05, 4, .u8, .rws, 255, 0, 0, 255, .place⟩,
  ⟨0x09, 4, .i16, .rws, 4000, 0, -32768, 32767, .place⟩,
  ⟨0x0D, 1, .i16, .rws, 300, 0, 100, 2000, .place⟩,
  ⟨0x0E, 1, .u32, .rws, 10000000, 0, 1000000, 600000000, .place⟩,
  ⟨0x0F, 1, .u32, .rws, 2000, 0, 0, 1000000, .place⟩,
  ⟨0x10, 1, .u32, .rws, 60000000, 0, 0, 3600000000, .place⟩,
  ⟨0x11, 1, .i16, .rws, 6000, 0, -32768, 32767, .place⟩,
  ⟨0x20, 1, .u8, .ro, 0, 0, 0, 255, .none⟩,
  ⟨0x21, 1, .u32, .ro, 0, 0, 0, 4294967295, .none⟩,
  ⟨0x22, 1, .u8, .ro, 0, 0, 0, 255, .none⟩]⟩
/-- 3E00h, 1 item(s). -/
def blk3E00 : Block := ⟨0x3E00, 1, [
  ⟨0x01, 1, .u16, .rws, 0, 0, 0, 65535, .place⟩,
  ⟨0x02, 1, .u8, .ro, 0, 0, 0, 255, .none⟩,
  ⟨0x03, 1, .i32, .ro, 0, 0, -2147483648, 2147483647, .none⟩,
  ⟨0x04, 1, .u32, .ro, 0, 0, 0, 4294967295, .none⟩,
  ⟨0x05, 1, .u32, .ro, 0, 0, 0, 4294967295, .none⟩,
  ⟨0x06, 1, .u32, .ro, 0, 0, 0, 4294967295, .none⟩,
  ⟨0x07, 1, .u8, .rws, 34, 0, 0, 63, .place⟩,
  ⟨0x08, 1, .u32, .ro, 0, 0, 0, 4294967295, .none⟩]⟩
/-- 3E10h, 32 item(s). -/
def blk3E10 : Block := ⟨0x3E10, 32, [
  ⟨0x01, 1, .u8, .rws, 0, 0, 0, 255, .place⟩,
  ⟨0x02, 1, .u8, .rws, 2, 0, 0, 4, .place⟩,
  ⟨0x03, 1, .u8, .rws, 0, 0, 0, 1, .place⟩,
  ⟨0x04, 1, .u8, .rws, 8, 0, 1, 255, .place⟩,
  ⟨0x05, 1, .u32, .rws, 2000, 0, 100, 100000, .place⟩,
  ⟨0x06, 1, .u16, .rws, 50, 0, 0, 500, .place⟩,
  ⟨0x07, 1, .bool, .rws, 1, 0, 0, 1, .place⟩,
  ⟨0x08, 1, .bool, .rws, 0, 0, 0, 1, .place⟩,
  ⟨0x10, 1, .bool, .rw, 0, 0, 0, 1, .none⟩,
  ⟨0x11, 1, .u8, .ro, 0, 0, 0, 255, .none⟩,
  ⟨0x12, 1, .i32, .ro, 0, 0, -2147483648, 2147483647, .none⟩,
  ⟨0x13, 1, .i32, .ro, 0, 0, -2147483648, 2147483647, .none⟩,
  ⟨0x14, 1, .u8, .ro, 0, 0, 0, 255, .none⟩,
  ⟨0x15, 1, .i16, .ro, 0, 0, -32768, 32767, .none⟩,
  ⟨0x16, 1, .u8, .ro, 0, 0, 0, 255, .none⟩,
  ⟨0x17, 1, .u8, .wo, 0, 0, 0, 255, .none⟩,
  ⟨0x18, 1, .u8, .ro, 255, 0, 0, 255, .none⟩]⟩
/-- 3F00h, 1 item(s). -/
def blk3F00 : Block := ⟨0x3F00, 1, [
  ⟨0x01, 1, .i32, .ro, 0, 0, -2147483648, 2147483647, .none⟩,
  ⟨0x02, 1, .i32, .ro, 0, 0, -2147483648, 2147483647, .none⟩,
  ⟨0x03, 1, .u8, .rws, 33, 0, 0, 63, .place⟩,
  ⟨0x04, 1, .u32, .ro, 0, 0, 0, 4294967295, .none⟩]⟩
/-- 3F10h, 16 item(s). -/
def blk3F10 : Block := ⟨0x3F10, 16, [
  ⟨0x01, 1, .u8, .rws, 0, 0, 0, 2, .place⟩,
  ⟨0x02, 1, .u32, .rws, 100000, 0, 1000, 10000000, .place⟩,
  ⟨0x03, 1, .u16, .rws, 1000, 0, 0, 10000, .place⟩,
  ⟨0x04, 1, .u16, .rws, 9500, 0, 0, 10000, .place⟩,
  ⟨0x05, 1, .i32, .rws, 0, 0, 0, 1000000, .place⟩,
  ⟨0x06, 1, .i32, .rws, 0, 0, 0, 1000000, .place⟩,
  ⟨0x07, 1, .i32, .rws, 0, 0, -2147483648, 2147483647, .place⟩,
  ⟨0x08, 1, .i32, .rws, 0, 0, -2147483648, 2147483647, .place⟩,
  ⟨0x09, 1, .i32, .rws, 0, 0, -2147483648, 2147483647, .place⟩,
  ⟨0x0A, 1, .u8, .rws, 255, 0, 0, 255, .place⟩,
  ⟨0x0B, 1, .i16, .rws, -2000, 0, -32768, 32767, .place⟩,
  ⟨0x0C, 1, .i16, .rws, 5500, 0, -32768, 32767, .place⟩,
  ⟨0x0D, 1, .i16, .rws, 0, 0, -32768, 32767, .place⟩,
  ⟨0x0E, 1, .i16, .rws, 4500, 0, -32768, 32767, .place⟩,
  ⟨0x0F, 1, .u16, .rws, 300, 0, 10, 5000, .place⟩,
  ⟨0x10, 1, .u16, .rws, 100, 0, 10, 5000, .place⟩,
  ⟨0x11, 1, .u32, .rws, 5000, 0, 100, 100000, .place⟩,
  ⟨0x12, 1, .u16, .rws, 1, 0, 0, 1000, .place⟩]⟩
/-- 3F30h, 16 item(s). -/
def blk3F30 : Block := ⟨0x3F30, 16, [
  ⟨0x01, 11, .i32, .rws, 0, 0, -2147483648, 2147483647, .place⟩]⟩
/-- 3F50h, 16 item(s). -/
def blk3F50 : Block := ⟨0x3F50, 16, [
  ⟨0x01, 1, .u8, .ro, 0, 0, 0, 255, .none⟩,
  ⟨0x02, 1, .u8, .ro, 0, 0, 0, 255, .none⟩,
  ⟨0x03, 1, .i32, .ro, 0, 0, -2147483648, 2147483647, .none⟩,
  ⟨0x04, 1, .i32, .ro, 0, 0, -2147483648, 2147483647, .none⟩,
  ⟨0x05, 1, .i16, .ro, 0, 0, -32768, 32767, .none⟩,
  ⟨0x06, 1, .u16, .ro, 0, 0, 0, 65535, .none⟩,
  ⟨0x07, 1, .u16, .ro, 0, 0, 0, 65535, .none⟩,
  ⟨0x08, 1, .u32, .ro, 0, 0, 0, 4294967295, .none⟩,
  ⟨0x09, 1, .u32, .ro, 0, 0, 0, 4294967295, .none⟩,
  ⟨0x0A, 1, .i32, .ro, 0, 0, -2147483648, 2147483647, .none⟩,
  ⟨0x0B, 1, .i32, .ro, 0, 0, -2147483648, 2147483647, .none⟩,
  ⟨0x0C, 1, .u8, .ro, 0, 0, 0, 255, .none⟩,
  ⟨0x0D, 1, .u32, .ro, 0, 0, 0, 4294967295, .none⟩,
  ⟨0x0E, 1, .u32, .ro, 0, 0, 0, 4294967295, .none⟩,
  ⟨0x0F, 1, .i32, .ro, 0, 0, -2147483648, 2147483647, .none⟩,
  ⟨0x10, 1, .u16, .ro, 0, 0, 0, 65535, .none⟩,
  ⟨0x11, 1, .u32, .ro, 0, 0, 0, 4294967295, .none⟩,
  ⟨0x12, 1, .u8, .ro, 0, 0, 0, 255, .none⟩]⟩
/-- 3F80h, 48 item(s). -/
def blk3F80 : Block := ⟨0x3F80, 48, [
  ⟨0x01, 1, .u8, .rws, 255, 0, 0, 255, .pm⟩]⟩
/-- 4000h, 1 item(s). -/
def blk4000 : Block := ⟨0x4000, 1, [
  ⟨0x02, 1, .u8, .rws, 32, 0, 0, 63, .net⟩,
  ⟨0x03, 1, .octet 6, .const, 0, 0, 0, (256 ^ 6 - 1), .none⟩,
  ⟨0x04, 1, .u16, .rws, 50000, 0, 1024, 65535, .net⟩]⟩
/-- 4010h, 24 item(s). -/
def blk4010 : Block := ⟨0x4010, 24, [
  ⟨0x01, 1, .u8, .rws, 0, 0, 0, 3, .out⟩,
  ⟨0x02, 1, .u8, .rws, 255, 0, 0, 255, .out⟩,
  ⟨0x03, 1, .bool, .rws, 0, 0, 0, 1, .out⟩,
  ⟨0x04, 1, .u8, .rws, 3, 0, 1, 3, .out⟩,
  ⟨0x05, 1, .u8, .rws, 255, 0, 0, 255, .out⟩,
  ⟨0x06, 1, .u32, .rws, 250000, 0, 50000, 5000000, .out⟩,
  ⟨0x07, 1, .u32, .rws, 2000000, 0, 100000, 60000000, .out⟩,
  ⟨0x08, 1, .u32, .rws, 60000000, 0, 1000000, 600000000, .out⟩,
  ⟨0x09, 1, .u32, .rws, 100000, 0, 1000, 2000000, .out⟩,
  ⟨0x0A, 1, .u32, .rws, 5000, 0, 1000, 100000, .out⟩,
  ⟨0x0B, 1, .i32, .rws, 10500, 0, -2147483648, 2147483647, .out⟩,
  ⟨0x0C, 1, .i32, .rws, 7500, 0, -2147483648, 2147483647, .out⟩,
  ⟨0x0D, 1, .i32, .rws, 4500, 0, -2147483648, 2147483647, .out⟩,
  ⟨0x0E, 1, .i32, .rws, 1500, 0, -2147483648, 2147483647, .out⟩,
  ⟨0x0F, 1, .i32, .rws, -6000, 0, -2147483648, 2147483647, .out⟩,
  ⟨0x10, 1, .u16, .rws, 500, 0, 300, 9700, .out⟩,
  ⟨0x11, 1, .u8, .rws, 50, 0, 10, 90, .out⟩,
  ⟨0x12, 1, .u32, .rws, 1000000, 0, 0, 60000000, .out⟩]⟩
/-- 4040h, 24 item(s). -/
def blk4040 : Block := ⟨0x4040, 24, [
  ⟨0x01, 1, .u8, .ro, 0, 0, 0, 255, .none⟩,
  ⟨0x02, 1, .u8, .ro, 0, 0, 0, 255, .none⟩,
  ⟨0x03, 1, .i32, .ro, 0, 0, -2147483648, 2147483647, .none⟩,
  ⟨0x04, 1, .i32, .ro, 0, 0, -2147483648, 2147483647, .none⟩,
  ⟨0x05, 1, .u8, .ro, 0, 0, 0, 255, .none⟩,
  ⟨0x06, 1, .u8, .ro, 0, 0, 0, 255, .none⟩,
  ⟨0x07, 1, .octet 8, .ro, 0, 0, 0, (256 ^ 8 - 1), .none⟩,
  ⟨0x08, 1, .i32, .ro, 0, 0, -2147483648, 2147483647, .none⟩,
  ⟨0x09, 1, .i32, .ro, 0, 0, -2147483648, 2147483647, .none⟩,
  ⟨0x0A, 1, .i32, .ro, 0, 0, -2147483648, 2147483647, .none⟩,
  ⟨0x0B, 1, .i32, .ro, 0, 0, -2147483648, 2147483647, .none⟩,
  ⟨0x0C, 1, .i32, .ro, 0, 0, -2147483648, 2147483647, .none⟩,
  ⟨0x0D, 1, .u8, .ro, 0, 0, 0, 255, .none⟩,
  ⟨0x0E, 1, .u32, .ro, 0, 0, 0, 4294967295, .none⟩,
  ⟨0x0F, 1, .octet 6, .ro, 0, 0, 0, (256 ^ 6 - 1), .none⟩]⟩
/-- 4080h, 8 item(s). -/
def blk4080 : Block := ⟨0x4080, 8, [
  ⟨0x01, 1, .u32, .rws, 12500000, 0, 1000000, 25000000, .net⟩,
  ⟨0x02, 1, .u8, .ro, 0, 0, 0, 255, .none⟩,
  ⟨0x03, 1, .u8, .ro, 0, 0, 0, 255, .none⟩,
  ⟨0x04, 1, .u32, .ro, 0, 0, 0, 4294967295, .none⟩]⟩
/-- 4400h, 3 item(s). -/
def blk4400 : Block := ⟨0x4400, 3, [
  ⟨0x01, 1, .bool, .rws, 0, 0, 0, 1, .net⟩,
  ⟨0x02, 1, .u8, .rws, 1, 0, 0, 1, .net⟩,
  ⟨0x03, 1, .u16, .rws, 2, 0, 1, 1024, .net⟩,
  ⟨0x04, 1, .u16, .rws, 63, 0, 1, 256, .net⟩,
  ⟨0x05, 1, .u8, .rws, 16, 0, 1, 128, .net⟩,
  ⟨0x06, 1, .u8, .rws, 16, 0, 1, 128, .net⟩,
  ⟨0x07, 1, .u16, .rws, 1, 0, 1, 1024, .net⟩,
  ⟨0x08, 1, .u16, .rws, 14, 0, 1, 256, .net⟩,
  ⟨0x09, 1, .u8, .rws, 5, 0, 1, 128, .net⟩,
  ⟨0x0A, 1, .u8, .rws, 5, 0, 1, 128, .net⟩,
  ⟨0x0B, 1, .u8, .rws, 1, 0, 0, 1, .net⟩,
  ⟨0x0C, 1, .u8, .rws, 15, 0, 0, 127, .net⟩,
  ⟨0x0D, 1, .u8, .rws, 0, 0, 0, 1, .net⟩,
  ⟨0x0E, 1, .bool, .rws, 1, 0, 0, 1, .net⟩,
  ⟨0x0F, 1, .u32, .rws, 0, 0, 0, 10000, .net⟩,
  ⟨0x10, 1, .u8, .rws, 0, 0, 0, 1, .net⟩,
  ⟨0x11, 1, .u16, .rws, 5, 0, 5, 1000, .net⟩,
  ⟨0x12, 1, .u32, .rws, 0, 0, 0, 4294967295, .net⟩,
  ⟨0x13, 1, .u32, .rws, 0, 0, 0, 4294967295, .net⟩,
  ⟨0x14, 1, .octet 8, .rws, 0, 0, 0, (256 ^ 8 - 1), .net⟩,
  ⟨0x15, 1, .octet 8, .rws, 0, 0, 0, (256 ^ 8 - 1), .net⟩,
  ⟨0x16, 1, .u8, .rws, 28, 1, 0, 63, .net⟩,
  ⟨0x17, 1, .u8, .wo, 0, 0, 0, 255, .none⟩,
  ⟨0x18, 1, .u8, .wo, 0, 0, 0, 255, .none⟩]⟩
/-- 4404h, 3 item(s). -/
def blk4404 : Block := ⟨0x4404, 3, [
  ⟨0x01, 1, .u8, .ro, 0, 0, 0, 255, .none⟩,
  ⟨0x02, 1, .u8, .ro, 0, 0, 0, 255, .none⟩,
  ⟨0x03, 1, .u8, .ro, 0, 0, 0, 255, .none⟩,
  ⟨0x04, 1, .u32, .ro, 0, 0, 0, 4294967295, .none⟩,
  ⟨0x05, 1, .u32, .ro, 0, 0, 0, 4294967295, .none⟩,
  ⟨0x06, 1, .u32, .ro, 0, 0, 0, 4294967295, .none⟩,
  ⟨0x07, 1, .u32, .ro, 0, 0, 0, 4294967295, .none⟩,
  ⟨0x08, 1, .u32, .ro, 0, 0, 0, 4294967295, .none⟩,
  ⟨0x09, 1, .u32, .ro, 0, 0, 0, 4294967295, .none⟩,
  ⟨0x0A, 1, .u32, .ro, 0, 0, 0, 4294967295, .none⟩,
  ⟨0x0B, 1, .u8, .ro, 0, 0, 0, 255, .none⟩,
  ⟨0x0C, 1, .u8, .ro, 0, 0, 0, 255, .none⟩,
  ⟨0x0D, 1, .u8, .wo, 0, 0, 0, 255, .none⟩,
  ⟨0x0E, 1, .u32, .ro, 0, 0, 0, 4294967295, .none⟩,
  ⟨0x0F, 1, .u8, .ro, 0, 0, 0, 255, .none⟩]⟩
/-- 4408h, 9 item(s). -/
def blk4408 : Block := ⟨0x4408, 9, [
  ⟨0x01, 1, .u32, .rw, 0, 0, 0, 536870911, .none⟩,
  ⟨0x02, 1, .u8, .rw, 0, 0, 0, 15, .none⟩,
  ⟨0x03, 1, .u8, .rw, 0, 0, 0, 64, .none⟩,
  ⟨0x04, 1, .octet 64, .rw, 0, 0, 0, (256 ^ 64 - 1), .none⟩,
  ⟨0x05, 1, .u64, .rw, 0, 0, 0, 18446744073709551615, .none⟩,
  ⟨0x06, 1, .u8, .wo, 0, 0, 0, 255, .none⟩,
  ⟨0x07, 1, .u8, .wo, 0, 0, 0, 255, .none⟩,
  ⟨0x08, 1, .u8, .ro, 0, 0, 0, 255, .none⟩,
  ⟨0x09, 1, .u64, .ro, 0, 0, 0, 18446744073709551615, .none⟩,
  ⟨0x0A, 1, .u32, .ro, 0, 0, 0, 4294967295, .none⟩]⟩
/-- 4420h, 192 item(s). -/
def blk4420 : Block := ⟨0x4420, 192, [
  ⟨0x01, 1, .bool, .rws, 0, 0, 0, 1, .net⟩,
  ⟨0x02, 1, .u32, .rws, 0, 0, 0, 4294967295, .net⟩,
  ⟨0x03, 1, .u32, .rws, 0, 0, 0, 4294967295, .net⟩,
  ⟨0x04, 1, .u8, .rws, 0, 0, 0, 2, .net⟩,
  ⟨0x05, 1, .u8, .rws, 0, 0, 0, 63, .net⟩,
  ⟨0x06, 1, .u32, .ro, 0, 0, 0, 4294967295, .none⟩]⟩
/-- 44E0h, 1 item(s). -/
def blk44E0 : Block := ⟨0x44E0, 1, [
  ⟨0x01, 1, .u8, .rws, 0, 0, 0, 3, .net⟩,
  ⟨0x02, 1, .u16, .rws, 1920, 0, 0, 2032, .net⟩,
  ⟨0x03, 1, .u8, .rws, 10, 0, 1, 100, .net⟩,
  ⟨0x04, 1, .u16, .rws, 30, 0, 2, 1000, .net⟩]⟩
/-- 44E8h, 8 item(s). -/
def blk44E8 : Block := ⟨0x44E8, 8, [
  ⟨0x01, 1, .bool, .rws, 0, 0, 0, 1, .net⟩,
  ⟨0x02, 1, .u64, .rws, 0, 0, 0, 281474976710655, .net⟩,
  ⟨0x03, 1, .i32, .rws, 1000000, 0, -2147483648, 2147483647, .net⟩,
  ⟨0x04, 1, .i32, .rws, 0, 0, -2147483648, 2147483647, .net⟩,
  ⟨0x05, 1, .i32, .rws, 0, 0, -2147483648, 2147483647, .net⟩,
  ⟨0x06, 1, .bool, .rws, 0, 0, 0, 1, .net⟩,
  ⟨0x07, 1, .u8, .ro, 0, 0, 0, 255, .none⟩,
  ⟨0x08, 1, .i32, .ro, 0, 0, -2147483648, 2147483647, .none⟩,
  ⟨0x09, 1, .i32, .ro, 0, 0, -2147483648, 2147483647, .none⟩,
  ⟨0x0A, 1, .i32, .ro, 0, 0, -2147483648, 2147483647, .none⟩,
  ⟨0x0B, 1, .u8, .ro, 0, 0, 0, 255, .none⟩,
  ⟨0x0C, 1, .u32, .ro, 0, 0, 0, 4294967295, .none⟩,
  ⟨0x0D, 1, .u8, .wo, 0, 0, 0, 255, .none⟩]⟩
/-- 4500h, 1 item(s). -/
def blk4500 : Block := ⟨0x4500, 1, [
  ⟨0x01, 1, .u8, .rws, 0, 0, 0, 2, .net⟩,
  ⟨0x02, 1, .u8, .rws, 0, 0, 0, 1, .net⟩,
  ⟨0x03, 1, .u8, .rws, 0, 0, 0, 2, .net⟩,
  ⟨0x04, 1, .u16, .rws, 200, 0, 0, 800, .net⟩,
  ⟨0x05, 1, .u16, .rws, 600, 0, 200, 1000, .net⟩,
  ⟨0x06, 1, .u32, .rws, 40000, 0, 1, 4194304, .net⟩,
  ⟨0x07, 1, .u32, .rws, 20000, 0, 1, 4194304, .net⟩,
  ⟨0x08, 1, .u8, .rws, 2, 0, 0, 7, .net⟩,
  ⟨0x09, 1, .u8, .rws, 3, 0, 1, 15, .net⟩,
  ⟨0x0A, 1, .u8, .rws, 19, 0, 0, 63, .net⟩,
  ⟨0x0B, 1, .u8, .rws, 31, 0, 0, 63, .net⟩,
  ⟨0x0C, 1, .u8, .wo, 0, 0, 0, 255, .none⟩,
  ⟨0x0D, 1, .u8, .rw, 0, 0, 0, 23, .none⟩,
  ⟨0x0E, 1, .octet 23, .rw, 0, 0, 0, (256 ^ 23 - 1), .none⟩]⟩
/-- 4501h, 1 item(s). -/
def blk4501 : Block := ⟨0x4501, 1, [
  ⟨0x01, 1, .u8, .ro, 0, 0, 0, 255, .none⟩,
  ⟨0x02, 1, .u32, .ro, 0, 0, 0, 4294967295, .none⟩,
  ⟨0x03, 1, .u32, .ro, 0, 0, 0, 4294967295, .none⟩,
  ⟨0x04, 1, .u32, .ro, 0, 0, 0, 4294967295, .none⟩,
  ⟨0x05, 1, .u32, .ro, 0, 0, 0, 4294967295, .none⟩,
  ⟨0x06, 1, .u32, .ro, 0, 0, 0, 4294967295, .none⟩,
  ⟨0x07, 1, .u32, .ro, 0, 0, 0, 4294967295, .none⟩,
  ⟨0x08, 1, .u32, .ro, 0, 0, 0, 4294967295, .none⟩,
  ⟨0x09, 1, .u32, .ro, 0, 0, 0, 4294967295, .none⟩]⟩
/-- 4540h, 62 item(s). -/
def blk4540 : Block := ⟨0x4540, 62, [
  ⟨0x01, 1, .u8, .rws, 0, 0, 0, 255, .net⟩,
  ⟨0x02, 1, .u8, .rw, 0, 0, 0, 23, .none⟩,
  ⟨0x03, 1, .octet 23, .rw, 0, 0, 0, (256 ^ 23 - 1), .none⟩,
  ⟨0x10, 1, .u8, .ro, 0, 0, 0, 255, .none⟩,
  ⟨0x11, 1, .u8, .ro, 3, 0, 0, 255, .none⟩,
  ⟨0x12, 1, .u8, .ro, 0, 0, 0, 255, .none⟩,
  ⟨0x13, 1, .u32, .ro, 0, 0, 0, 4294967295, .none⟩,
  ⟨0x14, 1, .u32, .ro, 0, 0, 0, 4294967295, .none⟩]⟩
/-- 4600h, 1 item(s). -/
def blk4600 : Block := ⟨0x4600, 1, [
  ⟨0x01, 1, .bool, .rws, 0, 0, 0, 1, .net⟩,
  ⟨0x02, 1, .u8, .rws, 0, 0, 0, 1, .net⟩,
  ⟨0x03, 1, .u8, .wo, 0, 0, 0, 255, .none⟩,
  ⟨0x04, 1, .u8, .wo, 0, 0, 0, 255, .none⟩,
  ⟨0x05, 1, .u32, .rws, 4294967295, 0, 0, 4294967295, .net⟩,
  ⟨0x06, 1, .bool, .rws, 1, 0, 0, 1, .net⟩,
  ⟨0x07, 1, .u8, .rws, 27, 0, 0, 63, .net⟩,
  ⟨0x08, 1, .u8, .wo, 0, 0, 0, 255, .none⟩]⟩
/-- 4601h, 1 item(s). -/
def blk4601 : Block := ⟨0x4601, 1, [
  ⟨0x01, 1, .u8, .ro, 0, 0, 0, 255, .none⟩,
  ⟨0x02, 1, .u8, .ro, 255, 0, 0, 255, .none⟩,
  ⟨0x03, 1, .u16, .ro, 0, 0, 0, 65535, .none⟩,
  ⟨0x04, 1, .bool, .ro, 0, 0, 0, 1, .none⟩,
  ⟨0x05, 1, .u8, .ro, 0, 0, 0, 255, .none⟩,
  ⟨0x06, 1, .u32, .ro, 0, 0, 0, 4294967295, .none⟩,
  ⟨0x07, 1, .u32, .ro, 0, 0, 0, 4294967295, .none⟩,
  ⟨0x08, 1, .u32, .ro, 0, 0, 0, 4294967295, .none⟩,
  ⟨0x09, 1, .u32, .ro, 0, 0, 0, 4294967295, .none⟩,
  ⟨0x0A, 1, .u32, .ro, 0, 0, 0, 4294967295, .none⟩,
  ⟨0x0B, 1, .u32, .ro, 0, 0, 0, 4294967295, .none⟩,
  ⟨0x0C, 1, .u32, .ro, 0, 0, 0, 4294967295, .none⟩,
  ⟨0x0D, 1, .u32, .ro, 0, 0, 0, 4294967295, .none⟩,
  ⟨0x0E, 1, .u32, .ro, 0, 0, 0, 4294967295, .none⟩,
  ⟨0x0F, 1, .u8, .ro, 0, 0, 0, 255, .none⟩,
  ⟨0x10, 1, .u32, .ro, 0, 0, 0, 4294967295, .none⟩]⟩
/-- 4602h, 1 item(s). -/
def blk4602 : Block := ⟨0x4602, 1, [
  ⟨0x01, 1, .u32, .ro, 512, 0, 0, 4294967295, .none⟩,
  ⟨0x02, 1, .u32, .ro, 0, 0, 0, 4294967295, .none⟩,
  ⟨0x03, 1, .u32, .ro, 0, 0, 0, 4294967295, .none⟩,
  ⟨0x04, 1, .u32, .ro, 0, 0, 0, 4294967295, .none⟩,
  ⟨0x05, 1, .u32, .ro, 0, 0, 0, 4294967295, .none⟩]⟩
/-- 4800h, 1 item(s). -/
def blk4800 : Block := ⟨0x4800, 1, [
  ⟨0x01, 1, .u8, .ro, 0, 0, 0, 255, .none⟩,
  ⟨0x02, 1, .u16, .ro, 0, 0, 0, 65535, .none⟩,
  ⟨0x03, 1, .u8, .ro, 255, 0, 0, 255, .none⟩,
  ⟨0x04, 1, .u8, .ro, 0, 0, 0, 255, .none⟩,
  ⟨0x05, 1, .u8, .ro, 0, 0, 0, 255, .none⟩,
  ⟨0x06, 1, .u8, .ro, 0, 0, 0, 255, .none⟩,
  ⟨0x07, 1, .u16, .ro, 236, 0, 0, 65535, .none⟩,
  ⟨0x08, 1, .u32, .ro, 0, 0, 0, 4294967295, .none⟩,
  ⟨0x09, 1, .u32, .ro, 0, 0, 0, 4294967295, .none⟩,
  ⟨0x0A, 1, .u32, .ro, 0, 0, 0, 4294967295, .none⟩,
  ⟨0x0B, 1, .u32, .ro, 0, 0, 0, 4294967295, .none⟩,
  ⟨0x0C, 1, .u32, .ro, 0, 0, 0, 4294967295, .none⟩,
  ⟨0x0D, 1, .u32, .ro, 0, 0, 0, 4294967295, .none⟩,
  ⟨0x0E, 1, .bool, .ro, 0, 0, 0, 1, .none⟩,
  ⟨0x10, 1, .u32, (.rwl 22), 10000, 0, 2000, 100000, .safe⟩,
  ⟨0x11, 1, .u32, (.rwl 22), 250, 0, 100, 4294967295, .safe⟩,
  ⟨0x12, 1, .u32, (.rwl 22), 50000, 0, 20000, 500000, .safe⟩,
  ⟨0x13, 1, .u32, (.rwl 22), 200000, 0, 50000, 2000000, .safe⟩,
  ⟨0x14, 1, .u8, (.rwl 22), 26, 0, 0, 63, .safe⟩]⟩
/-- 4810h, 16 item(s). -/
def blk4810 : Block := ⟨0x4810, 16, [
  ⟨0x01, 1, .u8, (.rwl 22), 0, 0, 0, 2, .safe⟩,
  ⟨0x02, 1, .u8, (.rwl 22), 4, 0, 0, 4, .safe⟩,
  ⟨0x03, 1, .u32, (.rwl 22), 1000, 0, 0, 100000, .safe⟩,
  ⟨0x04, 1, .bool, (.rwl 22), 0, 0, 0, 1, .safe⟩,
  ⟨0x05, 1, .u32, (.rwl 22), 100000, 0, 10000, 2000000, .safe⟩,
  ⟨0x06, 1, .u8, (.rwl 22), 255, 0, 0, 255, .safe⟩,
  ⟨0x07, 1, .u32, (.rwl 22), 16777215, 0, 0, 16777215, .safe⟩,
  ⟨0x10, 1, .u8, .ro, 0, 0, 0, 255, .none⟩]⟩
/-- 4840h, 24 item(s). -/
def blk4840 : Block := ⟨0x4840, 24, [
  ⟨0x01, 1, .i32, (.rwl 22), 1100000, 0, 100000, 1650000, .safe⟩,
  ⟨0x02, 1, .u32, (.rwl 22), 150, 0, 0, 10000, .safe⟩,
  ⟨0x03, 1, .u8, (.rwl 22), 255, 0, 0, 255, .safe⟩,
  ⟨0x04, 1, .u8, (.rwl 22), 0, 0, 0, 2, .safe⟩,
  ⟨0x05, 1, .u16, (.rwl 22), 100, 0, 50, 1000, .safe⟩,
  ⟨0x06, 1, .u32, (.rwl 22), 1000000, 0, 0, 10000000, .safe⟩,
  ⟨0x07, 1, .bool, (.rwl 22), 1, 0, 0, 1, .safe⟩,
  ⟨0x08, 1, .i32, (.rwl 22), 2000000, 0, -2147483648, 2147483647, .safe⟩,
  ⟨0x10, 1, .u32, .ro, 0, 0, 0, 4294967295, .none⟩,
  ⟨0x11, 1, .u8, .ro, 0, 0, 0, 255, .none⟩,
  ⟨0x12, 1, .u8, .ro, 0, 0, 0, 255, .none⟩,
  ⟨0x13, 1, .u16, .ro, 0, 0, 0, 65535, .none⟩,
  ⟨0x14, 1, .i32, .ro, 0, 0, -2147483648, 2147483647, .none⟩]⟩
/-- 4A00h, 1 item(s). -/
def blk4A00 : Block := ⟨0x4A00, 1, [
  ⟨0x01, 1, .u8, .ro, 0, 0, 0, 255, .none⟩,
  ⟨0x02, 1, .octet 97, .ro, 0, 0, 0, (256 ^ 97 - 1), .none⟩,
  ⟨0x03, 1, .u32, .ro, 0, 0, 0, 4294967295, .none⟩,
  ⟨0x04, 1, .u32, .ro, 0, 0, 0, 4294967295, .none⟩,
  ⟨0x05, 1, .u32, .ro, 0, 0, 0, 4294967295, .none⟩]⟩
/-- 4A01h, 1 item(s). -/
def blk4A01 : Block := ⟨0x4A01, 1, [
  ⟨0x01, 1, .u8, .wo, 0, 0, 0, 255, .none⟩,
  ⟨0x02, 1, .u8, .rw, 0, 0, 0, 255, .none⟩,
  ⟨0x03, 1, .u32, .rw, 0, 0, 0, 4294967295, .none⟩,
  ⟨0x04, 1, .u8, .rw, 0, 0, 0, 8, .none⟩,
  ⟨0x05, 1, .u16, .rw, 0, 0, 0, 2048, .none⟩,
  ⟨0x06, 1, .octet 2048, .rw, 0, 0, 0, (256 ^ 2048 - 1), .none⟩,
  ⟨0x07, 1, .u8, .ro, 0, 0, 0, 255, .none⟩]⟩
/-- 4A02h, 1 item(s). -/
def blk4A02 : Block := ⟨0x4A02, 1, [
  ⟨0x01, 1, .octet 48, .wo, 0, 0, 0, (256 ^ 48 - 1), .none⟩]⟩
/-- 4A10h, 256 item(s). -/
def blk4A10 : Block := ⟨0x4A10, 256, [
  ⟨0x01, 1, .u32, .ro, 0, 0, 0, 4294967295, .none⟩,
  ⟨0x02, 1, .u8, .ro, 0, 0, 0, 255, .none⟩,
  ⟨0x03, 1, .octet 133, .ro, 0, 0, 0, (256 ^ 133 - 1), .none⟩,
  ⟨0x04, 1, .octet 2048, .ro, 0, 0, 0, (256 ^ 2048 - 1), .none⟩,
  ⟨0x05, 1, .u8, .ro, 0, 0, 0, 255, .none⟩,
  ⟨0x06, 1, .u8, .ro, 0, 0, 0, 255, .none⟩,
  ⟨0x07, 1, .octet 133, .ro, 0, 0, 0, (256 ^ 133 - 1), .none⟩,
  ⟨0x08, 1, .u32, .ro, 0, 0, 0, 4294967295, .none⟩]⟩
/-- 4B10h, 16 item(s). -/
def blk4B10 : Block := ⟨0x4B10, 16, [
  ⟨0x01, 1, .u8, .ro, 0, 0, 0, 255, .none⟩,
  ⟨0x02, 1, .octet 97, .ro, 0, 0, 0, (256 ^ 97 - 1), .none⟩,
  ⟨0x03, 1, .octet 8, .ro, 0, 0, 0, (256 ^ 8 - 1), .none⟩,
  ⟨0x04, 1, .u8, .ro, 0, 0, 0, 255, .none⟩]⟩
/-- 4B20h, 1 item(s). -/
def blk4B20 : Block := ⟨0x4B20, 1, [
  ⟨0x01, 8, .octet 48, .ro, 0, 0, 0, (256 ^ 48 - 1), .none⟩,
  ⟨0x09, 1, .u32, .ro, 0, 0, 0, 4294967295, .none⟩,
  ⟨0x0A, 1, .u32, .ro, 0, 0, 0, 4294967295, .none⟩]⟩
/-- 4B30h, 1 item(s). -/
def blk4B30 : Block := ⟨0x4B30, 1, [
  ⟨0x01, 1, .u8, .wo, 0, 0, 0, 255, .none⟩,
  ⟨0x02, 1, .octet 32, .ro, 0, 0, 0, (256 ^ 32 - 1), .none⟩,
  ⟨0x03, 1, .octet 96, .wo, 0, 0, 0, (256 ^ 96 - 1), .none⟩,
  ⟨0x04, 1, .u8, .ro, 0, 0, 0, 255, .none⟩,
  ⟨0x05, 1, .octet 97, (.rwl 4), 0, 0, 0, (256 ^ 97 - 1), .none⟩,
  ⟨0x06, 1, .u8, .ro, 0, 0, 0, 255, .none⟩]⟩
/-- 4B40h, 1 item(s). -/
def blk4B40 : Block := ⟨0x4B40, 1, [
  ⟨0x01, 1, .u8, .wo, 0, 0, 0, 255, .none⟩,
  ⟨0x02, 1, .u32, .rw, 0, 0, 0, 33554432, .none⟩,
  ⟨0x03, 1, .u32, .rw, 0, 0, 0, 4294967295, .none⟩,
  ⟨0x04, 1, .octet 4096, .wo, 0, 0, 0, (256 ^ 4096 - 1), .none⟩,
  ⟨0x05, 1, .u8, .ro, 0, 0, 0, 255, .none⟩,
  ⟨0x06, 1, .u8, .ro, 0, 0, 0, 255, .none⟩,
  ⟨0x07, 1, .u32, .ro, 0, 0, 0, 4294967295, .none⟩,
  ⟨0x08, 1, .u32, .ro, 0, 0, 0, 4294967295, .none⟩]⟩
/-- 4C00h, 1 item(s). -/
def blk4C00 : Block := ⟨0x4C00, 1, [
  ⟨0x01, 1, .u32, .ro, 0, 0, 0, 4294967295, .none⟩,
  ⟨0x02, 1, .u32, .ro, 0, 0, 0, 4294967295, .none⟩,
  ⟨0x03, 1, .u32, .ro, 0, 0, 0, 4294967295, .none⟩,
  ⟨0x04, 1, .bool, .ro, 0, 0, 0, 1, .none⟩]⟩
/-- 4C08h, 7 item(s). -/
def blk4C08 : Block := ⟨0x4C08, 7, [
  ⟨0x01, 1, .u8, .ro, 0, 0, 0, 255, .none⟩,
  ⟨0x02, 1, .u16, .ro, 0, 0, 0, 65535, .none⟩,
  ⟨0x03, 1, .u32, .ro, 0, 0, 0, 4294967295, .none⟩]⟩
/-- 4C20h, 1 item(s). -/
def blk4C20 : Block := ⟨0x4C20, 1, [
  ⟨0x01, 1, .u8, .rws, 0, 0, 0, 63, .net⟩,
  ⟨0x02, 1, .u16, .rws, 10, 0, 1, 60000, .net⟩,
  ⟨0x03, 8, .u32, .rws, 0, 0, 0, 4294967295, .net⟩]⟩
/-- 4C40h, 64 item(s). -/
def blk4C40 : Block := ⟨0x4C40, 64, [
  ⟨0x01, 1, .u8, .rws, 0, 0, 0, 1, .net⟩,
  ⟨0x02, 1, .u16, .ro, 0, 0, 0, 65535, .none⟩,
  ⟨0x03, 1, .u8, .ro, 0, 0, 0, 255, .none⟩,
  ⟨0x04, 1, .octet 512, .ro, 0, 0, 0, (256 ^ 512 - 1), .none⟩,
  ⟨0x05, 1, .u16, .wo, 0, 0, 0, 65535, .none⟩,
  ⟨0x06, 1, .u8, .wo, 0, 0, 0, 255, .none⟩,
  ⟨0x07, 1, .u16, .wo, 0, 0, 0, 65535, .none⟩,
  ⟨0x08, 1, .u32, .ro, 0, 0, 0, 4294967295, .none⟩,
  ⟨0x09, 1, .u32, .ro, 0, 0, 0, 4294967295, .none⟩,
  ⟨0x0A, 1, .u32, .ro, 0, 0, 0, 4294967295, .none⟩,
  ⟨0x0B, 1, .u32, .ro, 0, 0, 0, 4294967295, .none⟩]⟩
/-- 4E00h, 1 item(s). -/
def blk4E00 : Block := ⟨0x4E00, 1, [
  ⟨0x01, 1, .u16, .wo, 0, 0, 0, 65535, .none⟩,
  ⟨0x02, 1, .u8, .ro, 0, 0, 0, 255, .none⟩,
  ⟨0x03, 1, .u16, .ro, 0, 0, 0, 65535, .none⟩,
  ⟨0x04, 1, .u8, .rws, 25, 0, 0, 63, .net⟩,
  ⟨0x05, 1, .u32, .rws, 1000, 0, 100, 86400000, .net⟩,
  ⟨0x06, 1, .u8, .ro, 255, 0, 0, 255, .none⟩,
  ⟨0x07, 1, .u8, .ro, 0, 0, 0, 255, .none⟩,
  ⟨0x08, 1, .u32, .ro, 0, 0, 0, 4294967295, .none⟩,
  ⟨0x09, 1, .u32, .ro, 0, 0, 0, 4294967295, .none⟩,
  ⟨0x0A, 1, .u16, .ro, 0, 0, 0, 65535, .none⟩]⟩
/-- 4E10h, 12 item(s). -/
def blk4E10 : Block := ⟨0x4E10, 12, [
  ⟨0x01, 1, .u8, .ro, 0, 0, 0, 255, .none⟩,
  ⟨0x02, 1, .octet 8, .ro, 0, 0, 0, (256 ^ 8 - 1), .none⟩,
  ⟨0x03, 1, .octet 8, .const, 0, 0, 0, (256 ^ 8 - 1), .none⟩,
  ⟨0x04, 1, .octet 8, .const, 0, 0, 0, (256 ^ 8 - 1), .none⟩,
  ⟨0x05, 1, .u32, .const, 0, 0, 0, 4294967295, .none⟩,
  ⟨0x06, 1, .u16, .const, 0, 0, 0, 65535, .none⟩,
  ⟨0x07, 1, .u32, .ro, 0, 0, 0, 4294967295, .none⟩,
  ⟨0x08, 1, .u32, .ro, 0, 0, 0, 4294967295, .none⟩]⟩
/-- 4E30h, 1 item(s). -/
def blk4E30 : Block := ⟨0x4E30, 1, [
  ⟨0x01, 1, .u32, .rw, 0, 0, 0, 3600, .none⟩,
  ⟨0x02, 1, .u32, .rw, 0, 0, 0, 16777215, .none⟩,
  ⟨0x03, 1, .octet 32, .ro, 0, 0, 0, (256 ^ 32 - 1), .none⟩,
  ⟨0x04, 1, .octet 96, .wo, 0, 0, 0, (256 ^ 96 - 1), .none⟩,
  ⟨0x05, 1, .u8, .ro, 0, 0, 0, 255, .none⟩,
  ⟨0x06, 1, .u32, .ro, 0, 0, 0, 4294967295, .none⟩,
  ⟨0x07, 1, .u8, .ro, 255, 0, 0, 255, .none⟩]⟩
/-- 4E40h, 179 item(s). -/
def blk4E40 : Block := ⟨0x4E40, 179, [
  ⟨0x01, 1, .u16, .rw, 0, 0, 0, 65535, .none⟩,
  ⟨0x02, 1, .i32, .rw, 0, 0, -2147483648, 2147483647, .none⟩,
  ⟨0x03, 1, .u32, .rw, 100000, 0, 2, 60000000, .none⟩,
  ⟨0x04, 1, .u8, .wo, 0, 0, 0, 255, .none⟩,
  ⟨0x05, 1, .u8, .wo, 0, 0, 0, 255, .none⟩,
  ⟨0x06, 1, .u8, .ro, 0, 0, 0, 255, .none⟩,
  ⟨0x07, 1, .u8, .ro, 0, 0, 0, 255, .none⟩,
  ⟨0x08, 1, .u32, .ro, 0, 0, 0, 4294967295, .none⟩,
  ⟨0x09, 1, .u32, .ro, 0, 0, 0, 4294967295, .none⟩,
  ⟨0x0A, 1, .u32, .ro, 0, 0, 0, 4294967295, .none⟩]⟩
/-- The machine: time, frames and what is due at the next PFB. -/
def hid10000 : Block := ⟨0x10000, 1, [
  ⟨0x01, 1, .hid, .ro, 0, 0, 0, 0, .none⟩,
  ⟨0x02, 1, .hid, .ro, 0, 0, 0, 0, .none⟩,
  ⟨0x03, 1, .hid, .ro, 0, 0, 0, 0, .none⟩,
  ⟨0x04, 1, .hid, .ro, 0, 0, 0, 0, .none⟩,
  ⟨0x05, 1, .hid, .ro, 0, 0, 0, 0, .none⟩,
  ⟨0x06, 1, .hid, .ro, 0, 0, 0, 0, .none⟩,
  ⟨0x07, 1, .hid, .ro, 0, 0, 0, 0, .none⟩,
  ⟨0x08, 1, .hid, .ro, 0, 0, 0, 0, .none⟩,
  ⟨0x09, 1, .hid, .ro, 0, 0, 0, 0, .none⟩,
  ⟨0x0A, 1, .hid, .ro, 0, 0, 0, 0, .none⟩,
  ⟨0x0B, 1, .hid, .ro, 0, 0, 0, 0, .none⟩,
  ⟨0x0C, 1, .hid, .ro, 0, 0, 0, 0, .none⟩,
  ⟨0x0D, 1, .hid, .ro, 0, 0, 0, 0, .none⟩,
  ⟨0x0E, 1, .hid, .ro, 0, 0, 0, 0, .none⟩,
  ⟨0x0F, 1, .hid, .ro, 0, 0, 0, 0, .none⟩,
  ⟨0x10, 1, .hid, .ro, 0, 0, 0, 0, .none⟩,
  ⟨0x11, 1, .hid, .ro, 0, 0, 0, 0, .none⟩,
  ⟨0x12, 1, .hid, .ro, 12, 0, 0, 0, .none⟩,
  ⟨0x13, 1, .hid, .ro, 0, 0, 0, 0, .none⟩,
  ⟨0x14, 1, .hid, .ro, 0, 0, 0, 0, .none⟩,
  ⟨0x15, 1, .hid, .ro, 0, 0, 0, 0, .none⟩,
  ⟨0x16, 1, .hid, .ro, 0, 0, 0, 0, .none⟩,
  ⟨0x17, 1, .hid, .ro, 0, 0, 0, 0, .none⟩,
  ⟨0x18, 1, .hid, .ro, 0, 0, 0, 0, .none⟩,
  ⟨0x19, 1, .hid, .ro, 0, 0, 0, 0, .none⟩,
  ⟨0x1A, 1, .hid, .ro, 0, 0, 0, 0, .none⟩,
  ⟨0x1B, 1, .hid, .ro, 0, 0, 0, 0, .none⟩,
  ⟨0x1C, 1, .hid, .ro, 0, 0, 0, 0, .none⟩,
  ⟨0x1D, 1, .hid, .ro, 0, 0, 0, 0, .none⟩,
  ⟨0x1E, 1, .hid, .ro, 0, 0, 0, 0, .none⟩,
  ⟨0x1F, 1, .hid, .ro, 0, 0, 0, 0, .none⟩,
  ⟨0x20, 1, .hid, .ro, 0, 0, 0, 0, .none⟩,
  ⟨0x21, 1, .hid, .ro, 0, 0, 0, 0, .none⟩,
  ⟨0x22, 1, .hid, .ro, 0, 0, 0, 0, .none⟩,
  ⟨0x23, 1, .hid, .ro, 0, 0, 0, 0, .none⟩,
  ⟨0x24, 1, .hid, .ro, 0, 0, 0, 0, .none⟩,
  ⟨0x25, 1, .hid, .ro, 0, 0, 0, 0, .none⟩,
  ⟨0x26, 1, .hid, .ro, 0, 0, 0, 0, .none⟩,
  ⟨0x27, 1, .hid, .ro, 0, 0, 0, 0, .none⟩,
  ⟨0x28, 1, .hid, .ro, 0, 0, 0, 0, .none⟩,
  ⟨0x29, 1, .hid, .ro, 0, 0, 0, 0, .none⟩,
  ⟨0x2A, 1, .hid, .ro, -1, 0, 0, 0, .none⟩,
  ⟨0x2B, 1, .hid, .ro, -1, 0, 0, 0, .none⟩,
  ⟨0x2C, 1, .hid, .ro, 0, 0, 0, 0, .none⟩,
  ⟨0x2D, 1, .hid, .ro, 0, 0, 0, 0, .none⟩,
  ⟨0x2E, 1, .hid, .ro, 0, 0, 0, 0, .none⟩,
  ⟨0x2F, 1, .hid, .ro, 0, 0, 0, 0, .none⟩,
  ⟨0x30, 1, .hid, .ro, 0, 0, 0, 0, .none⟩,
  ⟨0x31, 4, .hid, .ro, -1, 0, 0, 0, .none⟩,
  ⟨0x35, 1, .hid, .ro, 0, 0, 0, 0, .none⟩,
  ⟨0x36, 1, .hid, .ro, 0, 0, 0, 0, .none⟩,
  ⟨0x37, 1, .hid, .ro, 0, 0, 0, 0, .none⟩,
  ⟨0x38, 1, .hid, .ro, -1, 0, 0, 0, .none⟩,
  ⟨0x39, 1, .hid, .ro, 0, 0, 0, 0, .none⟩,
  ⟨0x3A, 1, .hid, .ro, 0, 0, 0, 0, .none⟩,
  ⟨0x3B, 1, .hid, .ro, -1, 0, 0, 0, .none⟩,
  ⟨0x3C, 1, .hid, .ro, 0, 0, 0, 0, .none⟩,
  ⟨0x3D, 1, .hid, .ro, -1, 0, 0, 0, .none⟩,
  ⟨0x3E, 1, .hid, .ro, -1, 0, 0, 0, .none⟩,
  ⟨0x3F, 1, .hid, .ro, 0, 0, 0, 0, .none⟩,
  ⟨0x40, 1, .hid, .ro, 0, 0, 0, 0, .none⟩,
  ⟨0x41, 1, .hid, .ro, 0, 0, 0, 0, .none⟩,
  ⟨0x42, 1, .hid, .ro, 0, 0, 0, 0, .none⟩,
  ⟨0x43, 3, .hid, .ro, 0, 0, 0, 0, .none⟩,
  ⟨0x46, 1, .hid, .ro, -1, 0, 0, 0, .none⟩,
  ⟨0x47, 1, .hid, .ro, 0, 0, 0, 0, .none⟩,
  ⟨0x48, 1, .hid, .ro, 0, 0, 0, 0, .none⟩,
  ⟨0x49, 1, .hid, .ro, 0, 0, 0, 0, .none⟩,
  ⟨0x4A, 1, .hid, .ro, 0, 0, 0, 0, .none⟩,
  ⟨0x4B, 1, .hid, .ro, 0, 0, 0, 0, .none⟩,
  ⟨0x4C, 1, .hid, .ro, 0, 0, 0, 0, .none⟩,
  ⟨0x4D, 1, .hid, .ro, 0, 0, 0, 0, .none⟩,
  ⟨0x4E, 1, .hid, .ro, 0, 0, 0, 0, .none⟩,
  ⟨0x4F, 1, .hid, .ro, 0, 0, 0, 0, .none⟩,
  ⟨0x50, 1, .hid, .ro, 0, 0, 0, 0, .none⟩,
  ⟨0x51, 1, .hid, .ro, -1, 0, 0, 0, .none⟩,
  ⟨0x52, 1, .hid, .ro, 0, 0, 0, 0, .none⟩,
  ⟨0x53, 1, .hid, .ro, 0, 0, 0, 0, .none⟩,
  ⟨0x54, 1, .hid, .ro, -1, 0, 0, 0, .none⟩,
  ⟨0x55, 1, .hid, .ro, -1, 0, 0, 0, .none⟩,
  ⟨0x56, 1, .hid, .ro, 0, 0, 0, 0, .none⟩,
  ⟨0x57, 1, .hid, .ro, -1, 0, 0, 0, .none⟩,
  ⟨0x58, 1, .hid, .ro, 0, 0, 0, 0, .none⟩,
  ⟨0x59, 7, .hid, .ro, 0, 0, 0, 0, .none⟩,
  ⟨0x60, 7, .hid, .ro, 0, 0, 0, 0, .none⟩,
  ⟨0x67, 1, .hid, .ro, -1, 0, 0, 0, .none⟩,
  ⟨0x68, 1, .hid, .ro, 0, 0, 0, 0, .none⟩,
  ⟨0x69, 1, .hid, .ro, 0, 0, 0, 0, .none⟩,
  ⟨0x6A, 1, .hid, .ro, 0, 0, 0, 0, .none⟩,
  ⟨0x6B, 1, .hid, .ro, 0, 0, 0, 0, .none⟩,
  ⟨0x6C, 1, .hid, .ro, 0, 0, 0, 0, .none⟩,
  ⟨0x6D, 1, .hid, .ro, 0, 0, 0, 0, .none⟩,
  ⟨0x6E, 1, .hid, .ro, 0, 0, 0, 0, .none⟩,
  ⟨0x6F, 1, .hid, .ro, 0, 0, 0, 0, .none⟩,
  ⟨0x70, 1, .hid, .ro, 0, 0, 0, 0, .none⟩,
  ⟨0x71, 1, .hid, .ro, 0, 0, 0, 0, .none⟩,
  ⟨0x72, 1, .hid, .ro, -1, 0, 0, 0, .none⟩,
  ⟨0x73, 1, .hid, .ro, 0, 0, 0, 0, .none⟩,
  ⟨0x74, 8, .hid, .ro, 0, 0, 0, 0, .none⟩,
  ⟨0x7C, 1, .hid, .ro, -1, 0, 0, 0, .none⟩,
  ⟨0x7D, 1, .hid, .ro, -1, 0, 0, 0, .none⟩,
  ⟨0x7E, 1, .hid, .ro, 0, 0, 0, 0, .none⟩,
  ⟨0x7F, 1, .hid, .ro, 0, 0, 0, 0, .none⟩,
  ⟨0x80, 1, .hid, .ro, 0, 0, 0, 0, .none⟩,
  ⟨0x81, 1, .hid, .ro, -1, 0, 0, 0, .none⟩,
  ⟨0x82, 1, .hid, .ro, 0, 0, 0, 0, .none⟩,
  ⟨0x83, 1, .hid, .ro, 0, 0, 0, 0, .none⟩,
  ⟨0x84, 1, .hid, .ro, 0, 0, 0, 0, .none⟩,
  ⟨0x85, 1, .hid, .ro, 15, 0, 0, 0, .none⟩,
  ⟨0x86, 1, .hid, .ro, 0, 0, 0, 0, .none⟩,
  ⟨0x87, 1, .hid, .ro, 0, 0, 0, 0, .none⟩,
  ⟨0x88, 1, .hid, .ro, 0, 0, 0, 0, .none⟩,
  ⟨0x89, 1, .hid, .ro, 0, 0, 0, 0, .none⟩,
  ⟨0x8A, 1, .hid, .ro, 0, 0, 0, 0, .none⟩,
  ⟨0x8B, 1, .hid, .ro, 0, 0, 0, 0, .none⟩,
  ⟨0x8C, 1, .hid, .ro, -1, 0, 0, 0, .none⟩,
  ⟨0x8D, 1, .hid, .ro, 0, 0, 0, 0, .none⟩,
  ⟨0x8E, 1, .hid, .ro, 0, 0, 0, 0, .none⟩,
  ⟨0x8F, 1, .hid, .ro, 0, 0, 0, 0, .none⟩,
  ⟨0x90, 1, .hid, .ro, 0, 0, 0, 0, .none⟩,
  ⟨0x91, 1, .hid, .ro, 0, 0, 0, 0, .none⟩,
  ⟨0x92, 1, .hid, .ro, 0, 0, 0, 0, .none⟩,
  ⟨0x93, 1, .hid, .ro, -1, 0, 0, 0, .none⟩,
  ⟨0x94, 2, .hid, .ro, 0, 0, 0, 0, .none⟩,
  ⟨0x96, 10, .hid, .ro, 0, 0, 0, 0, .none⟩,
  ⟨0xA0, 1, .hid, .ro, 0, 0, 0, 0, .none⟩,
  ⟨0xA1, 1, .hid, .ro, -1, 0, 0, 0, .none⟩,
  ⟨0xA2, 1, .hid, .ro, 0, 0, 0, 0, .none⟩,
  ⟨0xA3, 1, .hid, .ro, 0, 0, 0, 0, .none⟩,
  ⟨0xA4, 1, .hid, .ro, 0, 0, 0, 0, .none⟩,
  ⟨0xA5, 1, .hid, .ro, 0, 0, 0, 0, .none⟩,
  ⟨0xA6, 1, .hid, .ro, 0, 0, 0, 0, .none⟩,
  ⟨0xA7, 1, .hid, .ro, -1, 0, 0, 0, .none⟩,
  ⟨0xA8, 1, .hid, .ro, 0, 0, 0, 0, .none⟩,
  ⟨0xA9, 1, .hid, .ro, 0, 0, 0, 0, .none⟩,
  ⟨0xAA, 1, .hid, .ro, 0, 0, 0, 0, .none⟩,
  ⟨0xAB, 1, .hid, .ro, 0, 0, 0, 0, .none⟩,
  ⟨0xAC, 1, .hid, .ro, 0, 0, 0, 0, .none⟩,
  ⟨0xAD, 1, .hid, .ro, 0, 0, 0, 0, .none⟩,
  ⟨0xAE, 1, .hid, .ro, 0, 0, 0, 0, .none⟩,
  ⟨0xAF, 1, .hid, .ro, 0, 0, 0, 0, .none⟩,
  ⟨0xB0, 1, .hid, .ro, 0, 0, 0, 0, .none⟩,
  ⟨0xB1, 1, .hid, .ro, 0, 0, 0, 0, .none⟩,
  ⟨0xB2, 1, .hid, .ro, -1, 0, 0, 0, .none⟩,
  ⟨0xB3, 1, .hid, .ro, 0, 0, 0, 0, .none⟩,
  ⟨0xB4, 1, .hid, .ro, 0, 0, 0, 0, .none⟩,
  ⟨0xB5, 1, .hid, .ro, 0, 0, 0, 0, .none⟩,
  ⟨0xB6, 1, .hid, .ro, 0, 0, 0, 0, .none⟩,
  ⟨0xB7, 1, .hid, .ro, 0, 0, 0, 0, .none⟩,
  ⟨0xB8, 1, .hid, .ro, -1, 0, 0, 0, .none⟩,
  ⟨0xB9, 1, .hid, .ro, -1, 0, 0, 0, .none⟩,
  ⟨0xBA, 1, .hid, .ro, 0, 0, 0, 0, .none⟩,
  ⟨0xBB, 1, .hid, .ro, 0, 0, 0, 0, .none⟩,
  ⟨0xBC, 1, .hid, .ro, 0, 0, 0, 0, .none⟩,
  ⟨0xBD, 1, .hid, .ro, 0, 0, 0, 0, .none⟩,
  ⟨0xBE, 1, .hid, .ro, 0, 0, 0, 0, .none⟩,
  ⟨0xBF, 1, .hid, .ro, 0, 0, 0, 0, .none⟩,
  ⟨0xC0, 1, .hid, .ro, 0, 0, 0, 0, .none⟩,
  ⟨0xC1, 1, .hid, .ro, 0, 0, 0, 0, .none⟩,
  ⟨0xC2, 1, .hid, .ro, -1, 0, 0, 0, .none⟩,
  ⟨0xC3, 1, .hid, .ro, -1, 0, 0, 0, .none⟩,
  ⟨0xC4, 1, .hid, .ro, 0, 0, 0, 0, .none⟩]⟩
/-- Output k: session and loop registers that the rules name without an index. -/
def hid10100 : Block := ⟨0x10100, 24, [
  ⟨0x01, 1, .hid, .ro, 0, 0, 0, 0, .none⟩,
  ⟨0x02, 1, .hid, .ro, 0, 0, 0, 0, .none⟩,
  ⟨0x03, 1, .hid, .ro, 0, 0, 0, 0, .none⟩,
  ⟨0x04, 1, .hid, .ro, 0, 0, 0, 0, .none⟩,
  ⟨0x05, 1, .hid, .ro, -1, 0, 0, 0, .none⟩,
  ⟨0x06, 1, .hid, .ro, -1, 0, 0, 0, .none⟩,
  ⟨0x07, 1, .hid, .ro, 0, 0, 0, 0, .none⟩,
  ⟨0x08, 1, .hid, .ro, 0, 0, 0, 0, .none⟩,
  ⟨0x09, 1, .hid, .ro, -1, 0, 0, 0, .none⟩,
  ⟨0x0A, 1, .hid, .ro, -1, 0, 0, 0, .none⟩,
  ⟨0x0B, 1, .hid, .ro, 0, 0, 0, 0, .none⟩,
  ⟨0x0C, 1, .hid, .ro, 0, 0, 0, 0, .none⟩,
  ⟨0x0D, 1, .hid, .ro, 0, 0, 0, 0, .none⟩,
  ⟨0x0E, 1, .hid, .ro, 0, 0, 0, 0, .none⟩,
  ⟨0x0F, 1, .hid, .ro, 0, 0, 0, 0, .none⟩,
  ⟨0x10, 1, .hid, .ro, -1, 0, 0, 0, .none⟩,
  ⟨0x11, 1, .hid, .ro, 0, 0, 0, 0, .none⟩,
  ⟨0x12, 1, .hid, .ro, 0, 0, 0, 0, .none⟩,
  ⟨0x13, 1, .hid, .ro, -1, 0, 0, 0, .none⟩,
  ⟨0x14, 1, .hid, .ro, 0, 0, 0, 0, .none⟩,
  ⟨0x15, 1, .hid, .ro, 0, 0, 0, 0, .none⟩,
  ⟨0x16, 1, .hid, .ro, 0, 0, 0, 0, .none⟩,
  ⟨0x17, 1, .hid, .ro, -1, 0, 0, 0, .none⟩,
  ⟨0x18, 1, .hid, .ro, -1, 0, 0, 0, .none⟩,
  ⟨0x19, 1, .hid, .ro, 0, 0, 0, 0, .none⟩,
  ⟨0x1A, 1, .hid, .ro, 0, 0, 0, 0, .none⟩,
  ⟨0x1B, 1, .hid, .ro, 0, 0, 0, 0, .none⟩,
  ⟨0x1C, 1, .hid, .ro, 0, 0, 0, 0, .none⟩,
  ⟨0x1D, 1, .hid, .ro, 0, 0, 0, 0, .none⟩,
  ⟨0x1E, 1, .hid, .ro, 0, 0, 0, 0, .none⟩,
  ⟨0x1F, 1, .hid, .ro, 0, 0, 0, 0, .none⟩,
  ⟨0x20, 1, .hid, .ro, 0, 0, 0, 0, .none⟩,
  ⟨0x21, 1, .hid, .ro, 0, 0, 0, 0, .none⟩,
  ⟨0x22, 1, .hid, .ro, 0, 0, 0, 0, .none⟩,
  ⟨0x23, 1, .hid, .ro, 0, 0, 0, 0, .none⟩,
  ⟨0x24, 1, .hid, .ro, 0, 0, 0, 0, .none⟩,
  ⟨0x25, 1, .hid, .ro, 0, 0, 0, 0, .none⟩,
  ⟨0x26, 1, .hid, .ro, 0, 0, 0, 0, .none⟩,
  ⟨0x27, 1, .hid, .ro, 0, 0, 0, 0, .none⟩,
  ⟨0x28, 1, .hid, .ro, 0, 0, 0, 0, .none⟩,
  ⟨0x29, 1, .hid, .ro, 0, 0, 0, 0, .none⟩,
  ⟨0x2A, 1, .hid, .ro, 0, 0, 0, 0, .none⟩,
  ⟨0x2B, 1, .hid, .ro, 0, 0, 0, 0, .none⟩,
  ⟨0x2C, 1, .hid, .ro, -1, 0, 0, 0, .none⟩,
  ⟨0x2D, 1, .hid, .ro, -1, 0, 0, 0, .none⟩,
  ⟨0x2E, 1, .hid, .ro, 0, 0, 0, 0, .none⟩,
  ⟨0x2F, 1, .hid, .ro, 0, 0, 0, 0, .none⟩,
  ⟨0x30, 1, .hid, .ro, 0, 0, 0, 0, .none⟩,
  ⟨0x31, 1, .hid, .ro, 0, 0, 0, 0, .none⟩,
  ⟨0x32, 1, .hid, .ro, -1, 0, 0, 0, .none⟩,
  ⟨0x33, 1, .hid, .ro, 0, 0, 0, 0, .none⟩,
  ⟨0x34, 1, .hid, .ro, 0, 0, 0, 0, .none⟩,
  ⟨0x35, 1, .hid, .ro, 0, 0, 0, 0, .none⟩,
  ⟨0x36, 1, .hid, .ro, 0, 0, 0, 0, .none⟩,
  ⟨0x37, 1, .hid, .ro, 0, 0, 0, 0, .none⟩,
  ⟨0x38, 1, .hid, .ro, 0, 0, 0, 0, .none⟩,
  ⟨0x39, 1, .hid, .ro, 0, 0, 0, 0, .none⟩,
  ⟨0x3A, 1, .hid, .ro, 0, 0, 0, 0, .none⟩,
  ⟨0x3B, 1, .hid, .ro, 0, 0, 0, 0, .none⟩,
  ⟨0x3C, 1, .hid, .ro, -1, 0, 0, 0, .none⟩,
  ⟨0x3D, 1, .hid, .ro, 0, 0, 0, 0, .none⟩,
  ⟨0x3E, 1, .hid, .ro, 0, 0, 0, 0, .none⟩,
  ⟨0x3F, 1, .hid, .ro, 0, 0, 0, 0, .none⟩,
  ⟨0x40, 1, .hid, .ro, -1, 0, 0, 0, .none⟩,
  ⟨0x41, 1, .hid, .ro, 0, 0, 0, 0, .none⟩,
  ⟨0x42, 1, .hid, .ro, 0, 0, 0, 0, .none⟩,
  ⟨0x43, 1, .hid, .ro, 0, 0, 0, 0, .none⟩,
  ⟨0x44, 1, .hid, .ro, 0, 0, 0, 0, .none⟩,
  ⟨0x45, 1, .hid, .ro, 0, 0, 0, 0, .none⟩,
  ⟨0x46, 1, .hid, .ro, 0, 0, 0, 0, .none⟩,
  ⟨0x47, 1, .hid, .ro, 0, 0, 0, 0, .none⟩,
  ⟨0x48, 1, .hid, .ro, -1, 0, 0, 0, .none⟩,
  ⟨0x49, 1, .hid, .ro, -1, 0, 0, 0, .none⟩,
  ⟨0x4A, 1, .hid, .ro, 0, 0, 0, 0, .none⟩,
  ⟨0x4B, 1, .hid, .ro, 0, 0, 0, 0, .none⟩,
  ⟨0x4C, 1, .hid, .ro, -1, 0, 0, 0, .none⟩,
  ⟨0x4D, 1, .hid, .ro, 0, 0, 0, 0, .none⟩,
  ⟨0x4E, 1, .hid, .ro, 0, 0, 0, 0, .none⟩,
  ⟨0x4F, 1, .hid, .ro, 0, 0, 0, 0, .none⟩]⟩
/-- Channel n. -/
def hid10200 : Block := ⟨0x10200, 192, [
  ⟨0x01, 1, .hid, .ro, 0, 0, 0, 0, .none⟩,
  ⟨0x02, 1, .hid, .ro, 0, 0, 0, 0, .none⟩,
  ⟨0x03, 1, .hid, .ro, 0, 0, 0, 0, .none⟩,
  ⟨0x04, 1, .hid, .ro, 0, 0, 0, 0, .none⟩,
  ⟨0x05, 1, .hid, .ro, 0, 0, 0, 0, .none⟩,
  ⟨0x06, 1, .hid, .ro, 0, 0, 0, 0, .none⟩,
  ⟨0x07, 1, .hid, .ro, 0, 0, 0, 0, .none⟩,
  ⟨0x08, 1, .hid, .ro, 0, 0, 0, 0, .none⟩,
  ⟨0x09, 1, .hid, .ro, 0, 0, 0, 0, .none⟩,
  ⟨0x0A, 1, .hid, .ro, 0, 0, 0, 0, .none⟩,
  ⟨0x0B, 1, .hid, .ro, 0, 0, 0, 0, .none⟩,
  ⟨0x0C, 1, .hid, .ro, 0, 0, 0, 0, .none⟩,
  ⟨0x0D, 1, .hid, .ro, 0, 0, 0, 0, .none⟩,
  ⟨0x0E, 1, .hid, .ro, 0, 0, 0, 0, .none⟩,
  ⟨0x0F, 1, .hid, .ro, -1, 0, 0, 0, .none⟩,
  ⟨0x10, 1, .hid, .ro, 0, 0, 0, 0, .none⟩,
  ⟨0x11, 1, .hid, .ro, 0, 0, 0, 0, .none⟩]⟩
/-- Module m. -/
def hid10300 : Block := ⟨0x10300, 48, [
  ⟨0x01, 1, .hid, .ro, 0, 0, 0, 0, .none⟩,
  ⟨0x02, 1, .hid, .ro, 0, 0, 0, 0, .none⟩,
  ⟨0x03, 1, .hid, .ro, 0, 0, 0, 0, .none⟩,
  ⟨0x04, 1, .hid, .ro, 0, 0, 0, 0, .none⟩,
  ⟨0x05, 1, .hid, .ro, -1, 0, 0, 0, .none⟩,
  ⟨0x06, 1, .hid, .ro, -1, 0, 0, 0, .none⟩,
  ⟨0x07, 1, .hid, .ro, 0, 0, 0, 0, .none⟩,
  ⟨0x08, 1, .hid, .ro, 0, 0, 0, 0, .none⟩,
  ⟨0x09, 1, .hid, .ro, -1, 0, 0, 0, .none⟩,
  ⟨0x0A, 1, .hid, .ro, -1, 0, 0, 0, .none⟩,
  ⟨0x0B, 1, .hid, .ro, 0, 0, 0, 0, .none⟩,
  ⟨0x0C, 1, .hid, .ro, 0, 0, 0, 0, .none⟩,
  ⟨0x0D, 1, .hid, .ro, -1, 0, 0, 0, .none⟩,
  ⟨0x0E, 1, .hid, .ro, 0, 0, 0, 0, .none⟩,
  ⟨0x0F, 1, .hid, .ro, 0, 0, 0, 0, .none⟩,
  ⟨0x10, 1, .hid, .ro, 0, 0, 0, 0, .none⟩,
  ⟨0x11, 1, .hid, .ro, 0, 0, 0, 0, .none⟩,
  ⟨0x12, 1, .hid, .ro, 0, 0, 0, 0, .none⟩,
  ⟨0x13, 1, .hid, .ro, 0, 0, 0, 0, .none⟩,
  ⟨0x14, 1, .hid, .ro, -1, 0, 0, 0, .none⟩,
  ⟨0x15, 1, .hid, .ro, 0, 0, 0, 0, .none⟩]⟩
/-- Contactor expander x = 32 l + e. -/
def hid10400 : Block := ⟨0x10400, 128, [
  ⟨0x01, 1, .hid, .ro, 0, 0, 0, 0, .none⟩,
  ⟨0x02, 1, .hid, .ro, 0, 0, 0, 0, .none⟩,
  ⟨0x03, 1, .hid, .ro, 0, 0, 0, 0, .none⟩,
  ⟨0x04, 1, .hid, .ro, 0, 0, 0, 0, .none⟩,
  ⟨0x05, 1, .hid, .ro, 0, 0, 0, 0, .none⟩,
  ⟨0x06, 1, .hid, .ro, 0, 0, 0, 0, .none⟩,
  ⟨0x07, 1, .hid, .ro, 0, 0, 0, 0, .none⟩,
  ⟨0x08, 1, .hid, .ro, 0, 0, 0, 0, .none⟩,
  ⟨0x09, 1, .hid, .ro, 0, 0, 0, 0, .none⟩,
  ⟨0x0A, 1, .hid, .ro, 0, 0, 0, 0, .none⟩,
  ⟨0x0B, 1, .hid, .ro, 0, 0, 0, 0, .none⟩,
  ⟨0x0C, 16, .hid, .ro, -1, 0, 0, 0, .none⟩,
  ⟨0x1C, 1, .hid, .ro, 0, 0, 0, 0, .none⟩]⟩
/-- Safety input i. -/
def hid10700 : Block := ⟨0x10700, 16, [
  ⟨0x01, 1, .hid, .ro, 0, 0, 0, 0, .none⟩,
  ⟨0x02, 1, .hid, .ro, 0, 0, 0, 0, .none⟩,
  ⟨0x03, 1, .hid, .ro, 0, 0, 0, 0, .none⟩,
  ⟨0x04, 1, .hid, .ro, 0, 0, 0, 0, .none⟩,
  ⟨0x05, 1, .hid, .ro, 0, 0, 0, 0, .none⟩]⟩
/-- Meter q: DC meters 0–23, grid points 24 and 25; live registers. -/
def hid10800 : Block := ⟨0x10800, 26, [
  ⟨0x01, 1, .hid, .ro, 0, 0, 0, 0, .none⟩,
  ⟨0x02, 1, .hid, .ro, 0, 0, 0, 0, .none⟩,
  ⟨0x03, 1, .hid, .ro, 0, 0, 0, 0, .none⟩,
  ⟨0x04, 1, .hid, .ro, 0, 0, 0, 0, .none⟩,
  ⟨0x05, 1, .hid, .ro, 0, 0, 0, 0, .none⟩,
  ⟨0x06, 1, .hid, .ro, 0, 0, 0, 0, .none⟩,
  ⟨0x07, 1, .hid, .ro, 0, 0, 0, 0, .none⟩,
  ⟨0x08, 1, .hid, .ro, 0, 0, 0, 0, .none⟩,
  ⟨0x09, 4, .hid, .ro, 0, 0, 0, 0, .none⟩,
  ⟨0x0D, 4, .hid, .ro, 0, 0, 0, 0, .none⟩,
  ⟨0x11, 1, .hid, .ro, 0, 0, 0, 0, .none⟩,
  ⟨0x12, 1, .hid, .ro, 0, 0, 0, 0, .none⟩,
  ⟨0x13, 1, .hid, .ro, 0, 0, 0, 0, .none⟩,
  ⟨0x14, 1, .hid, .ro, 0, 0, 0, 0, .none⟩,
  ⟨0x15, 1, .hid, .ro, 0, 0, 0, 0, .none⟩,
  ⟨0x16, 1, .hid, .ro, 0, 0, 0, 0, .none⟩,
  ⟨0x17, 1, .hid, .ro, 0, 0, 0, 0, .none⟩,
  ⟨0x18, 1, .hid, .ro, 0, 0, 0, 0, .none⟩,
  ⟨0x19, 1, .hid, .ro, 0, 0, 0, 0, .none⟩,
  ⟨0x1A, 1, .hid, .ro, 0, 0, 0, 0, .none⟩,
  ⟨0x1B, 2, .hid, .ro, 0, 0, 0, 0, .none⟩,
  ⟨0x1D, 2, .hid, .ro, 0, 0, 0, 0, .none⟩]⟩
/-- Grid point g: sums of the interval (R184) and the coil integrators (R181). -/
def hid10900 : Block := ⟨0x10900, 2, [
  ⟨0x01, 3, .hid, .ro, 0, 0, 0, 0, .none⟩,
  ⟨0x04, 4, .hid, .ro, 0, 0, 0, 0, .none⟩,
  ⟨0x08, 3, .hid, .ro, 0, 0, 0, 0, .none⟩,
  ⟨0x0B, 1, .hid, .ro, 0, 0, 0, 0, .none⟩,
  ⟨0x0C, 3, .hid, .ro, 0, 0, 0, 0, .none⟩,
  ⟨0x0F, 3, .hid, .ro, 0, 0, 0, 0, .none⟩,
  ⟨0x12, 3, .hid, .ro, 0, 0, 0, 0, .none⟩,
  ⟨0x15, 3, .hid, .ro, 0, 0, 0, 0, .none⟩,
  ⟨0x18, 6, .hid, .ro, 0, 0, 0, 0, .none⟩,
  ⟨0x1E, 1, .hid, .ro, 0, 0, 0, 0, .none⟩,
  ⟨0x1F, 4, .hid, .ro, 0, 0, 0, 0, .none⟩,
  ⟨0x23, 4, .hid, .ro, 0, 0, 0, 0, .none⟩]⟩
/-- Pulse output j. -/
def hid10A00 : Block := ⟨0x10A00, 8, [
  ⟨0x01, 1, .hid, .ro, 0, 0, 0, 0, .none⟩,
  ⟨0x02, 1, .hid, .ro, 0, 0, 0, 0, .none⟩,
  ⟨0x03, 1, .hid, .ro, 30000, 0, 0, 0, .none⟩,
  ⟨0x04, 1, .hid, .ro, 0, 0, 0, 0, .none⟩,
  ⟨0x05, 1, .hid, .ro, -1, 0, 0, 0, .none⟩]⟩
/-- Housekeeping channel c. -/
def hid10B00 : Block := ⟨0x10B00, 64, [
  ⟨0x01, 1, .hid, .ro, 0, 0, 0, 0, .none⟩,
  ⟨0x02, 1, .hid, .ro, 0, 0, 0, 0, .none⟩,
  ⟨0x03, 1, .hid, .ro, 0, 0, 0, 0, .none⟩,
  ⟨0x04, 1, .hid, .ro, 0, 0, 0, 0, .none⟩]⟩
/-- Cable of output k. -/
def hid10C00 : Block := ⟨0x10C00, 24, [
  ⟨0x01, 1, .hid, .ro, 0, 0, 0, 0, .none⟩,
  ⟨0x02, 1, .hid, .ro, 0, 0, 0, 0, .none⟩,
  ⟨0x03, 1, .hid, .ro, 0, 0, 0, 0, .none⟩,
  ⟨0x04, 1, .hid, .ro, 0, 0, 0, 0, .none⟩,
  ⟨0x05, 1, .hid, .ro, 0, 0, 0, 0, .none⟩,
  ⟨0x06, 1, .hid, .ro, 0, 0, 0, 0, .none⟩,
  ⟨0x07, 1, .hid, .ro, 0, 0, 0, 0, .none⟩,
  ⟨0x08, 1, .hid, .ro, -1, 0, 0, 0, .none⟩,
  ⟨0x09, 1, .hid, .ro, 0, 0, 0, 0, .none⟩,
  ⟨0x0A, 1, .hid, .ro, 0, 0, 0, 0, .none⟩]⟩
/-- Heatsink of module m. -/
def hid10D00 : Block := ⟨0x10D00, 48, [
  ⟨0x01, 1, .hid, .ro, -1, 0, 0, 0, .none⟩]⟩
/-- Cooling loop j. -/
def hid10E00 : Block := ⟨0x10E00, 8, [
  ⟨0x01, 4, .hid, .ro, -1, 0, 0, 0, .none⟩,
  ⟨0x05, 1, .hid, .ro, -1, 0, 0, 0, .none⟩,
  ⟨0x06, 1, .hid, .ro, 0, 0, 0, 0, .none⟩,
  ⟨0x07, 1, .hid, .ro, -1, 0, 0, 0, .none⟩,
  ⟨0x08, 1, .hid, .ro, -1, 0, 0, 0, .none⟩,
  ⟨0x09, 1, .hid, .ro, -1, 0, 0, 0, .none⟩]⟩
/-- Field switch j. -/
def hid10F00 : Block := ⟨0x10F00, 32, [
  ⟨0x01, 1, .hid, .ro, 0, 0, 0, 0, .none⟩,
  ⟨0x02, 1, .hid, .ro, -1, 0, 0, 0, .none⟩,
  ⟨0x03, 1, .hid, .ro, -1, 0, 0, 0, .none⟩,
  ⟨0x04, 1, .hid, .ro, -1, 0, 0, 0, .none⟩,
  ⟨0x05, 1, .hid, .ro, 0, 0, 0, 0, .none⟩,
  ⟨0x06, 1, .hid, .ro, 0, 0, 0, 0, .none⟩]⟩
/-- Battery string s. -/
def hid10600 : Block := ⟨0x10600, 16, [
  ⟨0x01, 1, .hid, .ro, 0, 0, 0, 0, .none⟩,
  ⟨0x02, 1, .hid, .ro, 0, 0, 0, 0, .none⟩,
  ⟨0x03, 1, .hid, .ro, 0, 0, 0, 0, .none⟩,
  ⟨0x04, 1, .hid, .ro, 0, 0, 0, 0, .none⟩,
  ⟨0x05, 1, .hid, .ro, 0, 0, 0, 0, .none⟩,
  ⟨0x06, 1, .hid, .ro, 0, 0, 0, 0, .none⟩,
  ⟨0x07, 1, .hid, .ro, 0, 0, 0, 0, .none⟩,
  ⟨0x08, 1, .hid, .ro, 0, 0, 0, 0, .none⟩,
  ⟨0x09, 1, .hid, .ro, -1, 0, 0, 0, .none⟩,
  ⟨0x0A, 1, .hid, .ro, 1, 0, 0, 0, .none⟩,
  ⟨0x0B, 1, .hid, .ro, -1, 0, 0, 0, .none⟩,
  ⟨0x0C, 1, .hid, .ro, 0, 0, 0, 0, .none⟩,
  ⟨0x0D, 1, .hid, .ro, -1, 0, 0, 0, .none⟩,
  ⟨0x0E, 1, .hid, .ro, -1, 0, 0, 0, .none⟩,
  ⟨0x0F, 1, .hid, .ro, 0, 0, 0, 0, .none⟩,
  ⟨0x10, 1, .hid, .ro, 0, 0, 0, 0, .none⟩,
  ⟨0x11, 1, .hid, .ro, 0, 0, 0, 0, .none⟩,
  ⟨0x12, 1, .hid, .ro, -1, 0, 0, 0, .none⟩,
  ⟨0x13, 1, .hid, .ro, 0, 0, 0, 0, .none⟩,
  ⟨0x14, 1, .hid, .ro, 0, 0, 0, 0, .none⟩,
  ⟨0x15, 1, .hid, .ro, 0, 0, 0, 0, .none⟩,
  ⟨0x16, 1, .hid, .ro, -1, 0, 0, 0, .none⟩,
  ⟨0x17, 1, .hid, .ro, 0, 0, 0, 0, .none⟩,
  ⟨0x18, 1, .hid, .ro, 0, 0, 0, 0, .none⟩,
  ⟨0x19, 1, .hid, .ro, 0, 0, 0, 0, .none⟩,
  ⟨0x1A, 1, .hid, .ro, 0, 0, 0, 0, .none⟩]⟩
/-- Switchgear link l. -/
def hid10500 : Block := ⟨0x10500, 4, [
  ⟨0x01, 1, .hid, .ro, 0, 0, 0, 0, .none⟩,
  ⟨0x02, 1, .hid, .ro, -1, 0, 0, 0, .none⟩]⟩
/-- Modem port p. -/
def hid11000 : Block := ⟨0x11000, 8, [
  ⟨0x01, 2, .hid, .ro, 0, 0, 0, 0, .none⟩]⟩
/-- CAN port p. -/
def hid11100 : Block := ⟨0x11100, 3, [
  ⟨0x01, 1, .hid, .ro, 0, 0, 0, 0, .none⟩,
  ⟨0x02, 1, .hid, .ro, 0, 0, 0, 0, .none⟩,
  ⟨0x03, 1, .hid, .ro, 0, 0, 0, 0, .none⟩,
  ⟨0x04, 1, .hid, .ro, 0, 0, 0, 0, .none⟩,
  ⟨0x05, 1, .hid, .ro, 0, 0, 0, 0, .none⟩,
  ⟨0x06, 1, .hid, .ro, 0, 0, 0, 0, .none⟩]⟩
/-- Transmit buffer b of port p at i = 3 p + b. -/
def hid11200 : Block := ⟨0x11200, 9, [
  ⟨0x01, 1, .hid, .ro, 0, 0, 0, 0, .none⟩]⟩
/-- Front end r. -/
def hid11300 : Block := ⟨0x11300, 8, [
  ⟨0x01, 1, .hid, .ro, 0, 0, 0, 0, .none⟩,
  ⟨0x02, 1, .hid, .ro, -1, 0, 0, 0, .none⟩,
  ⟨0x03, 1, .hid, .ro, 0, 0, 0, 0, .none⟩,
  ⟨0x04, 1, .hid, .ro, 0, 0, 0, 0, .none⟩]⟩
/-- Mains-pulse phase p. -/
def hid11400 : Block := ⟨0x11400, 3, [
  ⟨0x01, 1, .hid, .ro, -1, 0, 0, 0, .none⟩,
  ⟨0x02, 1, .hid, .ro, 0, 0, 0, 0, .none⟩]⟩
/-- Mains-pulse station slot s. -/
def hid11500 : Block := ⟨0x11500, 62, [
  ⟨0x01, 1, .hid, .ro, 3, 0, 0, 0, .none⟩,
  ⟨0x02, 1, .hid, .ro, 0, 0, 0, 0, .none⟩]⟩
/-- Vault slot s: its key and its stage. -/
def hid11600 : Block := ⟨0x11600, 256, [
  ⟨0x01, 1, .hid, .ro, 0, 0, 0, 0, .none⟩,
  ⟨0x02, 1, .hid, .ro, 0, 0, 0, 0, .none⟩,
  ⟨0x03, 1, .hid, .ro, 0, 0, 0, 0, .none⟩,
  ⟨0x04, 1, .hid, .ro, 0, 0, 0, 0, .none⟩,
  ⟨0x05, 1, .hid, .ro, 0, 0, 0, 0, .none⟩]⟩
/-- Privileged blob b. -/
def hid11700 : Block := ⟨0x11700, 16, [
  ⟨0x01, 1, .hid, .ro, 0, 0, 0, 0, .none⟩,
  ⟨0x02, 1, .hid, .ro, 0, 0, 0, 0, .none⟩,
  ⟨0x03, 1, .hid, .ro, 0, 0, 0, 0, .none⟩]⟩
/-- Group g of R25. -/
def hid11800 : Block := ⟨0x11800, 268, [
  ⟨0x01, 1, .hid, .ro, 3, 0, 0, 0, .none⟩]⟩
def blocks0 : List Block := [blk1000, blk1010, blk1020, blk1021, blk1030, blk1040, blk2000, blk2010, blk2020, blk2030, blk2040, blk2050, blk2060, blk2070, blk2080, blk2090, blk2100, blk2800, blk2810, blk2820]
def blocks1 : List Block := [blk2840, blk3000, blk3100, blk3200, blk3400, blk3480, blk34C0, blk3600, blk3700, blk3720, blk3800, blk3840, blk3848, blk3880, blk3A00, blk3A10, blk3A20, blk3C00, blk3C10, blk3C60]
def blocks2 : List Block := [blk3C70, blk3C80, blk3D00, blk3D40, blk3E00, blk3E10, blk3F00, blk3F10, blk3F30, blk3F50, blk3F80, blk4000, blk4010, blk4040, blk4080, blk4400, blk4404, blk4408, blk4420, blk44E0]
def blocks3 : List Block := [blk44E8, blk4500, blk4501, blk4540, blk4600, blk4601, blk4602, blk4800, blk4810, blk4840, blk4A00, blk4A01, blk4A02, blk4A10, blk4B10, blk4B20, blk4B30, blk4B40, blk4C00, blk4C08]
def blocks4 : List Block := [blk4C20, blk4C40, blk4E00, blk4E10, blk4E30, blk4E40, hid10000, hid10100, hid10200, hid10300, hid10400, hid10700, hid10800, hid10900, hid10A00, hid10B00, hid10C00, hid10D00, hid10E00, hid10F00]
def blocks5 : List Block := [hid10600, hid10500, hid11000, hid11100, hid11200, hid11300, hid11400, hid11500, hid11600, hid11700, hid11800]
/-- The whole catalogue. -/
def blocks : List Block := blocks0 ++ blocks1 ++ blocks2 ++ blocks3 ++ blocks4 ++ blocks5

/-- The subindices of a row. -/
def Row.has (r : Row) (sub : Nat) : Bool := r.sub ≤ sub && sub < r.sub + r.cnt

/-- The indices of a block. -/
def Block.has (b : Block) (index : Nat) : Bool := b.base ≤ index && index < b.base + b.count

/-- The block of an index. -/
def findBlock (index : Nat) : Option Block := blocks.find? (·.has index)

/-- The row of a key, with the item's number within its block. -/
def findRow (k : Key) : Option (Nat × Row) :=
  match findBlock (k / 256) with
  | none => none
  | some b =>
    match b.rows.find? (·.has (k % 256)) with
    | none => none
    | some r => some (k / 256 - b.base, r)

/-- The default of an object (its table's column), which is what the machine holds where nothing was written.
Two defaults do not grow with the item evenly: FLT_QUEUE is 16 + p for filter f of port p (4420h + 64p + f.05),
and Q_CLASS is 0 for queues 0–23 and 1 for 24–63 (4C40h + q.01). -/
def dflt (k : Key) : Int :=
  match findRow k with
  | none => 0
  | some (i, r) =>
    if k / 256 - 0x4420 < 192 ∧ 0x4420 ≤ k / 256 ∧ k % 256 = 5 then 16 + i / 64
    else if k / 256 - 0x4C40 < 64 ∧ 0x4C40 ≤ k / 256 ∧ k % 256 = 1 then (if i < 24 then 0 else 1)
    else r.dflt + r.step * i

/-- A value brought into its type (R11, R34: every overflow saturates at the limit of the destination format).
A BOOL's byte is kept, since only 0 and 1 pass its range check (R42); an OCTET[n] value keeps its n bytes. -/
def Ty.norm (t : Ty) (v : Int) : Int :=
  match t with
  | .bool => clamp 0 255 v
  | .u8 => clamp 0 255 v
  | .u16 => clamp 0 65535 v
  | .u32 => clamp 0 4294967295 v
  | .u64 => clamp 0 18446744073709551615 v
  | .i16 => clamp (-32768) 32767 v
  | .i32 => clamp (-2147483648) 2147483647 v
  | .i64 => clamp (-9223372036854775808) 9223372036854775807 v
  | .octet n => v % (256 ^ n : Nat)
  | .hid => v

/-- The number of bytes a value of a type takes on a transport (R42). -/
def Ty.bytes : Ty → Nat
  | .bool => 1 | .u8 => 1 | .u16 => 2 | .u32 => 4 | .u64 => 8
  | .i16 => 2 | .i32 => 4 | .i64 => 8 | .octet n => n | .hid => 0

/-- Whether a type is signed. -/
def Ty.signed : Ty → Bool
  | .i16 => true | .i32 => true | .i64 => true | _ => false

/-- The type of a key; what has no row is a hidden register. -/
def tyOf (k : Key) : Ty :=
  match findRow k with
  | none => .hid
  | some (_, r) => r.ty

/-- A value as the register at `k` holds it. -/
def norm (k : Key) (v : Int) : Int := (tyOf k).norm v

/-- The access class of a key. -/
def accOf (k : Key) : Option Acc := (findRow k).map (·.2.acc)

/-- Whether a key is of class CONST: nothing writes it. -/
def isConst (k : Key) : Bool :=
  match accOf k with
  | some .const => true
  | _ => false

/-- The highest subindex of an index (R41). -/
def highestSub (index : Nat) : Option Nat :=
  match findBlock index with
  | none => none
  | some b => if index < 0x10000 then some (b.rows.foldl (fun m r => max m (r.sub + r.cnt - 1)) 0) else none

end Sys2Proof.Machine
end

