-- ==== Sys2Proof/Machine/State.lean ====
section
/-!
DEFINITION. The state of the block as plain data. Every object of the catalogue and every numbered register that a
rule names lives in one of three sparse stores in canonical form (spec/02_object_catalogue.md R41–R46); what is not
a number (queues, messages under way, transactions, folios, waiting inputs) is a list or a structure of its own.
-/

namespace Sys2Proof.Machine

/-- Why a command stops with a fault. No command of this block does: an error is the command's effect on the state
(an abort answered, an island in FAULT, a flag, an event word), so the type has no constructor. -/
inductive Fault where
deriving DecidableEq, Repr

/-- Why a command is refused. -/
inductive Refusal where
  /-- The command has no meaning in this model yet; raised by `exec` alone. Safe: nothing is claimed of it. -/
  | notModelled (mnemonic : String)
deriving DecidableEq, Repr

/-- Values by key: keys strictly rising, and no entry equal to its default. -/
abbrev Store := List (Key × Int)

/-- The entry of a key, if the store lists one. -/
def Store.find : Store → Key → Option Int
  | [], _ => none
  | (k', v) :: t, k => if k = k' then some v else Store.find t k

/-- What a key reads as: its entry, or its default where none is listed. -/
def Store.get (d : Key → Int) (st : Store) (k : Key) : Int := (Store.find st k).getD (d k)

/-- The store without an entry for a key. -/
def Store.erase : Store → Key → Store
  | [], _ => []
  | (k', v) :: t, k => if k = k' then Store.erase t k else (k', v) :: Store.erase t k

/-- The store with an entry for a key, in its place. -/
def Store.insert : Store → Key → Int → Store
  | [], k, v => [(k, v)]
  | (k', v') :: t, k, v =>
    if k < k' then (k, v) :: (k', v') :: t
    else if k = k' then (k, v) :: t
    else (k', v') :: Store.insert t k v

/-- A write that keeps the canonical form. -/
def Store.set (d : Key → Int) (st : Store) (k : Key) (v : Int) : Store :=
  if v = d k then Store.erase st k else Store.insert st k v

/-- The canonical form: keys strictly rising, no entry equal to its default. -/
def Store.wf (d : Key → Int) : Store → Bool
  | [] => true
  | [(k, v)] => v != d k
  | (k, v) :: (k', v') :: t => v != d k && decide (k < k') && Store.wf d ((k', v') :: t)

/-- An accession queue (R371–R375): its words, oldest first, the flags OVERRUN and UNCORR, and a gap marker that
waits for a free word (R374): how many items it counts and the FRAME_NO of the first. -/
structure Queue where
  words : List Nat
  overrun : Bool
  uncorr : Bool
  gapCount : Nat
  gapFrame : Nat
deriving DecidableEq, Repr

/-- A stamped input that waits for its sample (R17, R35): where it takes effect, R45's order among inputs of one
sample (source code, transport instance, tag, order of acceptance), and what it does. -/
structure Stamped where
  frame : Nat
  sample : Nat
  code : Nat
  inst : Nat
  tag : Nat
  seq : Nat
  src : Src
  inp : Input
deriving DecidableEq, Repr

/-- What the commit cut-off takes: every shadow and the groups that asked for a commit (R26). -/
structure Snapshot where
  shadow : Store
  reqs : List Nat
deriving DecidableEq, Repr

/-- What an open LOT transaction waits for: the requester's next segment or SEG_ACK, the stamp of its write, the
partition's verdict (R60), or, for a mirror write, the evaluation of a commit group: `landed` until the commit cut-off
has taken the write, `due` from then on (R62). -/
inductive TxnWait where
  | segment
  | stamp
  | verdict
  | landed (g : Nat)
  | due (g : Nat)
deriving DecidableEq, Repr

/-- A LOT transaction under way on an instance (R48–R51): `data` is the value of a read, or what a write has received
so far; `want` a write's total length; `done` the bytes of a read that have been sent; `seg` the next segment number
expected. -/
structure Txn where
  inst : Inst
  tag : Nat
  isWrite : Bool
  index : Nat
  sub : Nat
  data : List Byte
  want : Nat
  done : Nat
  seg : Nat
  opened : Int
  touched : Int
  wait : TxnWait
deriving DecidableEq, Repr

/-- A DTLS association (R54, R55). -/
structure Assoc where
  num : Fin 4
  canWrite : Bool
deriving DecidableEq, Repr

/-- What the block sends or answers. -/
inductive Sent where
  /-- A LOT message on an instance: header and data (R47). -/
  | lot (t : Inst) (h : LotHdr) (data : List Byte)
  /-- A catalogue write of the block's own row that was refused, with R49's code and detail. -/
  | refusedWrite (src : Src) (code detail : Nat)
  /-- A request passed to the partition (R60). -/
  | toPartition (index sub : Nat) (write : Bool) (data : List Byte)
  /-- A DTLS or TLS alert: 0 close_notify, 42 bad_certificate, 40 handshake_failure. -/
  | alert (t : Nat) (code : Nat)
  /-- A CAN frame handed to the bus. -/
  | can (p : Port) (id flags : Nat) (data : List Byte)
  /-- A switchgear command frame of a link: HDR, and entries of ADDR, CMD and CRC (R118). -/
  | sgl (l : Nat) (hdr : Nat) (entries : List (Nat × Nat × Nat))
  /-- A mains-pulse frame: its bits as half cycles on the phases of the mask (R295). -/
  | mpl (phases : Nat) (bits : List Bool)
  /-- A MIRROR message of the pair link: stamp, sequence number, source and input (R313). -/
  | mirror (frame sample seq : Nat) (src : Src) (inp : Input)
  /-- A pair-link message of a kind of R315 with its fields. -/
  | pair (kind : Nat) (fields : List Int)
  /-- A message to a vehicle on link k: kind and values. -/
  | vehicle (k : Nat) (kind : Nat) (vals : List Int)
  /-- A transfer on a modem port (R264). -/
  | modem (p : Fe) (bytes : List Byte)
deriving DecidableEq, Repr

/-- One phase channel's PWM edges of one period (R133), in ticks from the start of the frame under way: the period's start, and the ticks at
which PWM_L falls, PWM_H rises, PWM_H falls and PWM_L rises. -/
structure Edge where
  ch : Nat
  start : Int
  lFall : Int
  hRise : Int
  hFall : Int
  lRise : Int
deriving DecidableEq, Repr

/-- The body of a ledger entry (R204): its type, meter, FLAGS, REF_SEQ, VALUE_A and VALUE_B, sequence number, life-cycle
state, session number, frame, site time and AO ticks, the two registers, the session's identity and context, and the
audit counters. -/
structure Entry where
  kind : Nat
  mtr : Nat
  flags : Nat
  ref : Nat
  va : Nat
  vb : Nat
  seq : Nat
  lc : Nat
  sess : Nat
  frame : Nat
  time : Nat
  ticks : Nat
  eImp : Nat
  eExp : Nat
  sid : Nat
  ctx : Nat
  fw : Nat
  fwAudit : Nat
  paramAudit : Nat
deriving DecidableEq, Repr

/-- A totals folio or a close record (R197, R198): the registers, residues and accumulators in the order of their
keys, the AO tick count and number of the sample at which they were taken, the last I_INST of every DC meter, and
entry bodies that were stored unsigned. -/
structure MtSave where
  vals : List Int
  ticks : Int
  sample : Int
  iInst : List Int
  unsigned : List Entry
deriving DecidableEq, Repr

/-- A latched trip or lock of the SF island (R333, R341): the output it names (255: the site), the bit of its cause in
TRIP_CAUSE (16: adopted from the partner, R345), the bit of OUT_LOCK it sets, the SCO groups it cuts, and when the
demand behind it last arose. -/
structure Latch where
  out : Nat
  cause : Nat
  lock : Nat
  mask : Nat
  since : Int
deriving DecidableEq, Repr

/-- A bank of a folio (R363, R364): 0 blank, 1 valid, 2 failing its check; its sequence number, and its payload as
values rather than bytes: numbers in the order of the rule that gives the payload, and objects by key.
[DESIGN CHOICE, log 62] -/
structure Bank where
  state : Nat
  seq : Nat
  vals : List Int
  keyed : Store
deriving DecidableEq, Repr

/-- A folio of a region (R362); one that is not listed has both banks blank (R369). -/
structure Folio where
  region : Nat
  folio : Nat
  a : Bank
  b : Bank
deriving DecidableEq, Repr

/-- Content that waits to be written or is being written (R366–R368); `next` is newer content that arrived since. -/
structure FolioJob where
  region : Nat
  folio : Nat
  running : Bool
  onB : Bool
  again : Bool
  vals : List Int
  keyed : Store
  next : Option (List Int × Store)
deriving DecidableEq, Repr

/-- An image of the boot flash (R349): the one the unit was shipped with, or what updates have written, as chunks of
4,096 bytes by number, each a little-endian number; what no chunk holds reads FFh. -/
structure Image where
  factory : Bool
  chunks : List (Nat × Nat)
deriving DecidableEq, Repr

/-- A frame that the resident firmware sends through buffer 0 of a CAN port (R281): the front end it commands, its
identifier and its data. -/
structure FwFrame where
  port : Nat
  fe : Option Nat
  id : Nat
  data : List Byte
deriving DecidableEq, Repr

/-- What is not a numbered register: lists and structures, chapter by chapter. -/
structure Data where
  /-- Stamped inputs that wait (R17). -/
  stamps : List Stamped
  /-- What the last commit cut-off took; and what the starts of the present and of the last MT sample took for MET
  (R26). -/
  snap : Snapshot
  metSnap : Snapshot
  metOld : Snapshot
  /-- Groups whose COMMIT has been requested since (R26). -/
  reqs : List Nat
  /-- Items raised by the command under way, with the key of the object that names their queue (R372). -/
  raised : List (Key × List Nat)
  /-- What the last command sent. -/
  sent : List Sent
  /-- How many free values have been drawn (the model's own field; assumption log 2). -/
  drawn : Nat
  /-- LOT transactions (R48), DTLS associations (R54) and partition objects (R60). -/
  txns : List Txn
  assocs : List Assoc
  partObjs : List PartObj
  /-- The objects as they stood at sample 0 (R35), for the Shelver; its result; the handovers in flight. -/
  snap0 : Store
  snapHo : List Handover
  shRes : Option ShResult
  handovers : List Handover
  /-- The last 766 bits of each bitstream input (R128), newest in bit 0: inputs 0–191 SD_I, 192–263 SD_V; an input
  not listed holds the alternating pattern. -/
  sdWin : List (Nat × Nat)
  /-- The PWM edges (R133) of the periods that began in the sample under way, or that were not over when it began. -/
  edges : List Edge
  /-- Ledger entries that wait for their signature (R203). -/
  ledgerDue : List Entry
  /-- Session starts (1), stops (2) and snapshots (8) that wait for the coming MT sample: kind, meter, frame (R203). -/
  ledgerReq : List (Nat × Nat × Nat)
  /-- The ring: sequence numbers with the slot's 256 bytes as one little-endian number (R206). -/
  ledger : List (Nat × Nat)
  /-- The MT sample in work: it counts from the moment the next one begins (R190). -/
  mtPend : Option (List DcSample × List GridSample)
  /-- Grid samples since before the last tick crossing, oldest first: v0 v1 v2 i0 i1 i2 of each point, µV and µA. -/
  mtBuf : List (List Int)
  /-- The newest valid totals folio, and the close record (R197, R198). -/
  mtTotals : Option MtSave
  mtClose : Option MtSave
  /-- Latched trips and locks (R333). -/
  latches : List Latch
  /-- The folios of the MRAM die, and the writes that wait or run, in order of request (R362–R369). -/
  folios : List Folio
  folioJobs : List FolioJob
  /-- Frames of the resident firmware for buffer 0, in stamp order (R281). -/
  canFw : List FwFrame
  /-- Images A and B of the boot flash (R349). -/
  imgA : Image
  imgB : Image
  /-- This unit's edge hashes of the last four samples: FRAME_NO, sample, the 12 groups (R318). -/
  hashes : List (Nat × Nat × List Nat)
  /-- What START_UP brought from outside while step 6 waits for the partner (R311). -/
  startEnv : Option StartEnv
  /-- Inputs that a unit which does not drive has received itself and seen no mirrored stamp for (R316). -/
  ownRx : List Input
  /-- The bits still to be sent on the three mains phases (R295), and the last 16 counted half-cycle periods of the
  reference phase, ns (R293). -/
  mplOut : List (List Bool)
  mplT : List Int
deriving DecidableEq, Repr

/-- THE STATE. -/
structure State where
  /-- The commands that wait, first in, first out. -/
  pending : List Instr
  /-- RO, RW and CONST objects and the registers without an index. -/
  objs : Store
  /-- The active and the shadow copies of RWS and RWL objects (R25). -/
  active : Store
  shadow : Store
  /-- The sample whose boundary comes next, 0–500; at 500 the frame has run its samples (R19). -/
  next : Fin 501
  /-- The accession queues 0–63 (R371). -/
  queues : List Queue
  /-- The rest. -/
  d : Data
deriving DecidableEq, Repr

/-- An RO, RW or CONST object or a register without an index. -/
def State.o (s : State) (k : Key) : Int := s.objs.get dflt k

/-- The active copy of an RWS or RWL object (R43). -/
def State.a (s : State) (k : Key) : Int := s.active.get dflt k

/-- The shadow copy. -/
def State.sh (s : State) (k : Key) : Int := s.shadow.get dflt k

/-- Queue `q`. -/
def State.queue (s : State) (q : Nat) : Queue := s.queues.getD q ⟨[], false, false, 0, 0⟩

/-- The state right after reset: every object at the default its table gives (the catalogue's defaults; the log
names every one that the spec does not give), nothing under way, no command waiting. -/
def State.reset : State where
  pending := []
  objs := []
  active := []
  shadow := []
  next := 0
  queues := List.replicate 64 ⟨[], false, false, 0, 0⟩
  d := {
    stamps := [], snap := ⟨[], []⟩, metSnap := ⟨[], []⟩, metOld := ⟨[], []⟩, reqs := [], raised := [], sent := [], drawn := 0,
    txns := [], assocs := [], partObjs := [],
    snap0 := [], snapHo := [], shRes := none, handovers := [], sdWin := [], edges := [], ledgerDue := [],
    ledgerReq := [], ledger := [], mtPend := none, mtBuf := [], mtTotals := some ⟨[], 0, 0, [], []⟩, mtClose := none,
    latches := [], folios := [⟨0, 0, ⟨1, 1, [], []⟩, ⟨0, 0, [], []⟩⟩], folioJobs := [],
    imgA := ⟨true, []⟩, imgB := ⟨true, []⟩, canFw := [], hashes := [], startEnv := none, ownRx := [],
    mplOut := [[], [], []], mplT := [] }

end Sys2Proof.Machine
end

