-- ==== Sys2Proof/Machine/Script.lean ====
section
/-!
DEFINITION. How a command changes the state. Every change is one of the actions below, and a command's effect is a
script of them: so what every command keeps (stores in canonical form, values in their types, queues within their
1,024 words, constants unchanged, the waiting commands untouched) is said once, of `Action.apply`.
-/

namespace Sys2Proof.Machine

/-- The room of R373 and R374 decides what becomes of an item on queue `q`. Class A: an item that does not fit is
not written, OVERRUN is set. Class B keeps one word in reserve and marks a gap in it; a queue with no reserved word
keeps the gap count for a marker that is written as the first word once a word frees. -/
def Queue.gapWord (frame count : Nat) : Nat := 255 * 2 ^ 56 + (frame % 65536) * 2 ^ 32 + min count 4294967295

/-- Whether a word is a gap marker (R374: EVENT FFh). -/
def Queue.isGap (w : Nat) : Bool := w / 2 ^ 56 == 255

/-- The queue after an item, and whether the item was dropped.
[DEDUCED, log 38] -/
def Queue.add (classB : Bool) (frame : Nat) (item : List Nat) (q : Queue) : Queue × Bool :=
  let n := q.words.length
  if !classB then
    if n + item.length ≤ 1024 then ({ q with words := q.words ++ item }, false)
    else ({ q with overrun := true }, true)
  else if q.gapCount = 0 ∧ n + item.length + 1 ≤ 1024 then ({ q with words := q.words ++ item }, false)
  else if n < 1024 ∧ 0 < q.gapCount then
    ({ q with words := q.words ++ [Queue.gapWord q.gapFrame (q.gapCount + 1)], gapCount := 0 }, true)
  else
    match q.words.getLast? with
    | some w =>
      if Queue.isGap w ∧ q.gapCount = 0 then
        ({ q with words := q.words.dropLast ++ [if w % 2 ^ 32 < 4294967295 then w + 1 else w] }, true)
      else if n < 1024 then ({ q with words := q.words ++ [Queue.gapWord frame 1] }, true)
      else ({ q with gapCount := q.gapCount + 1, gapFrame := if q.gapCount = 0 then frame else q.gapFrame }, true)
    | none => ({ q with words := [Queue.gapWord frame 1] }, true)

/-- The queue with its oldest `n` words gone; a gap marker that waited is written once a word is free (R374).
[DEDUCED, log 38] -/
def Queue.consume (n : Nat) (q : Queue) : Queue :=
  let w := q.words.drop n
  if 0 < q.gapCount ∧ w.length < 1024 then
    { q with words := w ++ [Queue.gapWord q.gapFrame q.gapCount], gapCount := 0 }
  else { q with words := w }

/-- One change of the state. -/
inductive Action where
  /-- Write an object or a register without an index; a CONST object keeps its value (R13). -/
  | put (k : Key) (v : Int)
  /-- Write an active copy, a shadow copy. -/
  | putA (k : Key) (v : Int)
  | putS (k : Key) (v : Int)
  /-- Replace the whole of one store's entries at once: the objects a predicate picks go back to their defaults. -/
  | forget (p : Key → Bool)
  | forgetA (p : Key → Bool)
  | forgetS (p : Key → Bool)
  /-- Write an item to a queue under the class its Q_CLASS names. -/
  | item (q : Nat) (words : List Nat)
  /-- Consume words, empty a queue, take over what the partner's holds, clear its flags, or replace a word that a scrub found uncorrectable. -/
  | consume (q : Nat) (n : Nat)
  | empty (q : Nat)
  | load (q : Nat) (x : Queue)
  | clearFlags (q : Nat)
  | poison (q : Nat) (pos : Nat)
  /-- Change what is not a numbered register. -/
  | data (f : Data → Data)

/-- A list with one entry replaced. -/
def setAt {α : Type} : List α → Nat → α → List α
  | [], _, _ => []
  | _ :: t, 0, x => x :: t
  | h :: t, n + 1, x => h :: setAt t n x

/-- Key of Q_CLASS of queue q. -/
def classKey (q : Nat) : Key := R.qClass q

/-- The effect of an action. No action touches the waiting commands or the sample counter. -/
def Action.apply (a : Action) (s : State) : State :=
  match a with
  | .put k v => if isConst k then s else { s with objs := s.objs.set dflt k (norm k v) }
  | .putA k v => { s with active := s.active.set dflt k (norm k v) }
  | .putS k v => { s with shadow := s.shadow.set dflt k (norm k v) }
  | .forget p => { s with objs := s.objs.filter (fun e => !p e.1 || isConst e.1) }
  | .forgetA p => { s with active := s.active.filter (fun e => !p e.1) }
  | .forgetS p => { s with shadow := s.shadow.filter (fun e => !p e.1) }
  | .item q ws =>
    { s with queues := setAt s.queues q
                           ((s.queue q).add (s.a (classKey q) = 1) (s.o R.frameNo).toNat ws).1 }
  | .consume q n => { s with queues := setAt s.queues q ((s.queue q).consume n) }
  | .empty q => { s with queues := setAt s.queues q ⟨[], false, false, 0, 0⟩ }
  | .load q x => { s with queues := setAt s.queues q { x with words := x.words.take 1024 } }
  | .clearFlags q => { s with queues := setAt s.queues q { s.queue q with overrun := false, uncorr := false } }
  | .poison q pos =>
    { s with queues := setAt s.queues q
                           { s.queue q with words := setAt (s.queue q).words pos 0xFEFEFEFEFEFEFEFE, uncorr := true } }
  | .data f => { s with d := f s.d }

/-- A command's effect: actions one after another, each of which may look at the state it finds. -/
inductive Script where
  | skip
  | one (a : Action)
  | seq (a b : Script)
  | dyn (f : State → Script)

/-- Running a script. -/
def Script.run : Script → State → State
  | .skip, s => s
  | .one a, s => a.apply s
  | .seq a b, s => b.run (a.run s)
  | .dyn f, s => (f s).run s

/-- Scripts one after another. -/
def all : List Script → Script
  | [] => .skip
  | a :: t => .seq a (all t)

/-- One script per element, in order. -/
def each {α : Type} (l : List α) (f : α → Script) : Script :=
  match l with
  | [] => .skip
  | a :: t => .seq (f a) (each t f)

/-- A script under a condition. -/
def onlyIf (c : Bool) (a : Script) : Script := if c then a else .skip

/-- Write an object. -/
def put (k : Key) (v : Int) : Script := .one (.put k v)
/-- Write an active copy. -/
def putA (k : Key) (v : Int) : Script := .one (.putA k v)
/-- Write a shadow copy. -/
def putS (k : Key) (v : Int) : Script := .one (.putS k v)
/-- Change what is not a numbered register. -/
def upd (f : Data → Data) : Script := .one (.data f)
/-- Count one more. -/
def bump (k : Key) : Script := .dyn fun s => put k (s.o k + 1)
/-- Send a message. -/
def send (m : Sent) : Script := upd fun d => { d with sent := d.sent ++ [m] }
/-- Raise an item for the queue that the object `k` names (R372). -/
def raise (k : Key) (ws : List Nat) : Script := upd fun d => { d with raised := d.raised ++ [(k, ws)] }
/-- A draw of a free value of `w` bits, handed to what follows.
[DESIGN CHOICE, log 2] -/
def draw (w : Nat) (f : Nat → Script) : Script :=
  .dyn fun s => .seq (upd fun d => { d with drawn := d.drawn + 1 }) (f (Config.freeBits w s.d.drawn).toNat)

/-- The items of one command in R372's order: by the key of the object that names the queue, then as raised. -/
def sortRaised (l : List (Key × List Nat)) : List (Key × List Nat) :=
  l.foldl (fun acc x => acc.takeWhile (fun y => y.1 ≤ x.1) ++ [x] ++ acc.dropWhile (fun y => y.1 ≤ x.1)) []

/-! ## Stamps (R17, R35, R45) -/

/-- FRAME_NO. -/
def State.frame (s : State) : Nat := (s.o R.frameNo).toNat
/-- The sample in progress: the one last begun (sample 0 between a PFB and its first boundary). -/
def State.sample (s : State) : Nat := s.next.val - 1
/-- FRAME_NO of the frame after (R20). -/
def nextFrame (f : Nat) : Nat := (f + 1) % 4294967296
/-- The place at which an input accepted now takes effect: 10 samples on (R35), or sample 10 of the first frame
after an alignment gap (R24). -/
def State.dueAt (s : State) : Nat × Nat :=
  if s.o R.inGap = 1 then (nextFrame s.frame, 10)
  else if s.sample + 10 < 500 then (s.frame, s.sample + 10)
  else (nextFrame s.frame, s.sample + 10 - 500)

/-- LAST_SOURCE code (2040h.05). -/
def srcCode : Src → Nat
  | .can _ => 0 | .udp _ => 1 | .partition => 2 | .firmware => 3 | .mirror => 4

/-- Transport instance within a source (R45). -/
def srcInst : Src → Nat
  | .can p => p.val | .udp a => a.val | .partition => 0 | .firmware => 0 | .mirror => 0

/-- Accept an input of this unit alone: it is stamped (R35) with R45's order, and never mirrored (R314). -/
def acceptLocal (src : Src) (tag : Nat) (inp : Input) : Script :=
  .dyn fun s =>
    all [ upd fun d => { d with stamps := d.stamps ++
            [⟨s.dueAt.1, s.dueAt.2, (srcCode src), (srcInst src), tag, (s.o R.seqNo).toNat, src, inp⟩] },
          bump R.seqNo ]

/-- Accept an input: it is stamped, and mirrored where the unit is ACTIVE or hands over (R313). -/
def accept (src : Src) (tag : Nat) (inp : Input) : Script :=
  .dyn fun s =>
    .seq (if s.o R.pairRole = 1 || s.o R.pairRole = 3 then
        upd fun d => { d with sent := d.sent ++ [.mirror s.dueAt.1 s.dueAt.2 (s.o R.seqNo).toNat src inp] } else .skip)
      (acceptLocal src tag inp)

/-! ## The queues (R371–R374) -/

/-- Write an item to queue `q`; Q_WRITTEN (4C40h + q.0B) counts the words that it gained, Q_DROPPED (.08) the items
that found no room (R373, R374). There are queues 0 to 63 (R371).
[DEDUCED, log 38] -/
def enqueue (q : Nat) (ws : List Nat) : Script :=
  .dyn fun s =>
    let r := (s.queue q).add (s.a (classKey q) = 1) (s.o R.frameNo).toNat ws
    let gain : Int := r.1.words.length - (s.queue q).words.length
    if 64 ≤ q then .skip
    else
      all [ .one (.item q ws), put (R.qWritten q) (s.o (R.qWritten q) + gain),
            if r.2 then put (R.qDropped q) (s.o (R.qDropped q) + 1) else .skip ]

/-- Write the raised items to their queues. -/
def flushNow : Script :=
  .dyn fun s =>
    .seq (upd fun d => { d with raised := [] })
      (each (sortRaised s.d.raised) fun x => enqueue (s.a x.1).toNat x.2)

/-- Hand over the raised items (R372). A SOLO unit writes them. In a pair only the active unit produces: each item is
stamped and mirrored, and both units write it at its stamp.
[DEDUCED, log 38] -/
def flush : Script :=
  .dyn fun s =>
    if s.o R.pairRole = 0 then flushNow
    else
      .seq (upd fun d => { d with raised := [] })
        (onlyIf (s.o R.pairRole = 1 || (s.o R.pairRole = 3 && s.o R.swapRun != 2))
          (each (sortRaised s.d.raised) fun x => accept .firmware 0 (.item (s.a x.1).toNat x.2)))

/-- A command's outcome: its script, then the items it raised. What the command before it sent is gone. -/
def does (sc : Script) (s : State) : Host.Outcome State Fault Refusal :=
  .next ((all [upd fun d => { d with sent := [] }, sc, flush]).run s)

/-- A command that has its effect only where its occurrence condition holds; elsewhere it has none (log 3). -/
def doesIf (c : State → Bool) (sc : Script) (s : State) : Host.Outcome State Fault Refusal :=
  does (.dyn fun s => onlyIf (c s) sc) s

/-- The same for a command that moves the sample counter (R19) before its script runs; no other command moves it.
[DEDUCED, log 3] -/
def movesIf (c : State → Bool) (n : State → Fin 501) (sc : Script) (s : State) : Host.Outcome State Fault Refusal :=
  if c s then does sc { s with next := n s } else does .skip s

/-- An event word: EVENT in [63:56], ITEM in [55:48], VALUE in [47:32], FRAME_NO in [31:0] (R225, R241 and the
like). -/
def eventWord (ev item value frame : Nat) : Nat :=
  (ev % 256) * 2 ^ 56 + (item % 256) * 2 ^ 48 + (value % 65536) * 2 ^ 32 + frame % 2 ^ 32

/-- Raise an event word for the class B queue that the object `k` names. -/
def event (k : Key) (ev item value : Nat) : Script :=
  .dyn fun s => raise k [eventWord ev item value (s.o R.frameNo).toNat]

end Sys2Proof.Machine
end

