-- ==== Sys2Proof/Machine/Ops.lean ====
section
/-!
DEFINITION. Operations that many commands share: the arithmetic of R34, time and stamps (R17, R35), what is present
(R5), the roles and modes other chapters ask for, and the coils of the switchgear (R115, R121).
-/

namespace Sys2Proof.Machine

/-- A positive divisor. -/
def pos (x : Int) : Int := max 1 x

/-- a / b rounded to nearest, ties to even (R34), for b > 0.
[DEDUCED, log 13] -/
def rne (a b : Int) : Int :=
  let q := a / b
  let r := a % b
  if 2 * r < b then q else if b < 2 * r then q + 1 else if q % 2 = 0 then q else q + 1

/-- 2^28, the unit of Q4.28 (R11). -/
def one28 : Int := 268435456

/-- rnd28 of R129. -/
def rnd28 (x : Int) : Int := rne x one28

/-- Saturation to Q4.28 (R129). -/
def satQ (x : Int) : Int := clamp (-2147483648) 2147483647 x

/-- Saturation to 40 bits (R137). -/
def sat40 (x : Int) : Int := clamp (-549755813888) 549755813887 x

/-- ceil(a / b) for b > 0. -/
def cdiv (a b : Int) : Int := -((-a) / b)

/-- Bit `i` of a register. -/
def bit (v : Int) (i : Nat) : Bool := v.toNat.testBit i

/-- The register with bit `i` set or cleared. -/
def withBit (v : Int) (i : Nat) (b : Bool) : Int :=
  if bit v i = b then v else if b then v + 2 ^ i else v - 2 ^ i

/-- A Bool as a register's value. -/
def ofBool (b : Bool) : Int := if b then 1 else 0

/-- 0, 1, …, n − 1. -/
def upTo (n : Nat) : List Nat := List.range n

/-- Sum of a function over a list. -/
def sumOver {α : Type} (l : List α) (f : α → Int) : Int := l.foldl (fun a x => a + f x) 0

/-! ## Time (R11, R19, R22) -/

/-- Time in ns since the model's start. -/
def State.now (s : State) : Int := s.o R.now
/-- Site time in ns. -/
def State.site (s : State) : Int := s.o R.now + s.o R.siteOff
/-- Global sample count G (R143). -/
def State.gcount (s : State) : Nat := 500 * s.frame + s.sample
/-- µs since a time. -/
def State.usSince (s : State) (t : Int) : Int := (s.now - t) / 1000

/-- An input of the controller's own making (an event of the field), which the resident firmware hands over. -/
def sense (inp : Input) : Script := accept .firmware 0 inp

/-- An input that both units of a pair receive: the unit that drives stamps it; the other keeps it until the mirrored
copy arrives, unless that has come already (R316).
[DEDUCED, log 64] -/
def receive (inp : Input) : Script :=
  .dyn fun s =>
    if !(s.o R.pairRole = 2 || s.o R.pairRole = 4) then sense inp
    else if s.d.stamps.any (·.inp = inp) then .skip
    else upd fun d => { d with ownRx := (d.ownRx ++ [inp]).drop (d.ownRx.length - 255) }

/-! ## What is present (R5) and what governs -/

/-- Channel, module and output counts of the part. -/
def State.nCh (s : State) : Nat := (s.o R.channelsPresent).toNat
def State.nPm (s : State) : Nat := (s.o R.modulesPresent).toNat
def State.nOut (s : State) : Nat := (s.o R.outputsPresent).toNat

/-- The islands in the order of 2000h. -/
def iAP : Nat := 0
def iCA : Nat := 1
def iPL : Nat := 2
def iMT : Nat := 3
def iVL : Nat := 4
def iNW : Nat := 5
def iSF : Nat := 6
def iSC : Nat := 7
def iHK : Nat := 8
def iPK : Nat := 9
def iAO : Nat := 10
def iFP : Nat := 11

/-- ISLAND_STATE of an island. -/
def State.island (s : State) (i : Nat) : Int := s.o (R.islandState i)

/-- Pair roles of 4601h.01. -/
def roleSolo : Int := 0
def roleActive : Int := 1
def roleStandby : Int := 2
def roleSwapping : Int := 3
def roleSuspect : Int := 4
def State.role (s : State) : Int := s.o R.pairRole
/-- Whether this unit holds gate ownership: it drives unless it stands by or is suspect (R310). -/
def State.drives (s : State) : Bool := !(s.role = roleStandby || s.role = roleSuspect)
/-- Whether it drives the shared buses (R309, R310): a unit of a pair only while its SEL_FB reads 1. -/
def State.onBus (s : State) : Bool := s.drives && (s.o R.pairOn != 1 || s.o R.selFb = 1)

/-- A running segment is abandoned without a verdict (R386); it is repeated at the next start.
[DESIGN CHOICE, log 67] -/
def abandonSegment : Script :=
  .dyn fun s =>
    if s.o R.stocktakeState != 3 then .skip
    else all [ put R.stocktakeState 0, put (R.stResult (s.o R.segIsland).toNat) 3, put R.segEndFrame s.frame,
               put R.segIsland 255, put R.segPartition 0 ]

/-- A role (R310), with event B0h; leaving STANDBY abandons a segment (R386). -/
def setRole (r : Int) : Script :=
  .dyn fun s =>
    if s.role = r then .skip
    else all [ put R.pairRole r, event R.pairEventQueue 0xB0 255 r.toNat, if r = roleStandby then .skip else abandonSegment ]

/-- The cause of a HEALTH bit has been seen (R328). -/
def health (b : Nat) : Script :=
  .dyn fun s => .seq (put R.health (((s.o R.health).toNat ||| 2 ^ b : Nat) : Int)) (put (R.healthLast b) s.frame)

/-- LC_STATE (1010h.01). -/
def State.lc (s : State) : Int := s.o R.lcState

/-- OUT_STATE codes (3600h + k.11). -/
def osIdle : Int := 0
def osConnected : Int := 1
def osIso : Int := 2
def osPre : Int := 3
def osEnergy : Int := 4
def osRamp : Int := 5
def osWeld : Int := 6
def osEnded : Int := 7
def osFault : Int := 8
def State.os (s : State) (k : Nat) : Int := s.o (R.outState k)
/-- Eligible outputs of R82. -/
def eligible (st : Int) : Bool := st = osIso || st = osPre || st = osEnergy
/-- Energised outputs of R77. -/
def energised (st : Int) : Bool := st = osPre || st = osEnergy || st = osRamp

/-- CH_STATE codes (3100h + n.01). -/
def csDisabled : Int := 0
def csOpen : Int := 1
def csClosed : Int := 2
def csTripped : Int := 3
def csHiccup : Int := 4
def csLatched : Int := 5
def State.cs (s : State) (n : Nat) : Int := s.o (R.chState n)
/-- The legs of a module (R7). -/
def legs (m : Nat) : List Nat := [4 * m, 4 * m + 1, 4 * m + 2, 4 * m + 3]
/-- A leg counts as available in OPEN and CLOSED (R80), unless an engine's failure has withdrawn it (R39). -/
def State.avail (s : State) (n : Nat) : Bool := (s.cs n = csOpen || s.cs n = csClosed) && s.o (R.chStopped n) != 2
/-- L_m of R80. -/
def State.legCount (s : State) (m : Nat) : Int := ((legs m).filter s.avail).length

/-- MOD_STATE codes (2840h + m.10). -/
def msAvailable : Int := 0
def msAssigned : Int := 1
def msDraining : Int := 2
def msQuarantined : Int := 3
def msOffline : Int := 4
def msPinned : Int := 5
/-- Output a module holds; 255 none. -/
def State.holds (s : State) (m : Nat) : Nat := (s.o (R.modOutput m)).toNat
/-- Output a module counts as connected for (R91). -/
def State.connTo (s : State) (m : Nat) : Option Nat :=
  if s.o (R.modConn m) = 0 then none else some (s.o (R.modConn m) - 1).toNat
/-- The modules that count as connected for output k, ascending. -/
def State.connected (s : State) (k : Nat) : List Nat := (upTo 48).filter fun m => s.connTo m = some k
/-- Reachability of a module (R81). -/
def State.reach (s : State) (m : Nat) : List Nat :=
  ((upTo 8).map fun i => (s.a (R.reach m i)).toNat).filter (· < 24)
/-- The selector coil of module m towards output k (R115), if it reaches it. -/
def State.selector (s : State) (m k : Nat) : Option Nat :=
  (upTo 8).find? fun i => s.a (R.reach m i) = k

/-! ## Coils (R115) -/

/-- Expander number 32 l + e that carries module m's selectors, and the coil of selector i. -/
def selExp (m : Nat) : Nat := 32 * (m / 12) + (m % 12) / 2
def selCoil (m i : Nat) : Nat := 8 * (m % 2) + i
/-- Expander that carries output k's contactors, and coil c of it (0 DC+, 1 DC−, 2 BLEED). -/
def outExp (k : Nat) : Nat := 32 * (k / 6) + (if k % 6 < 4 then 6 else 7)
def outCoil (k c : Nat) : Nat := 4 * ((k % 6) % 4) + c

/-- Command a new word on an expander: EXP_CMD holds it, and it is sent in 4 cycles (R121). `sf` marks a word that
the SF island changed.
[DEDUCED, log 33] -/
def command (x : Nat) (w : Int) (sf : Bool) : Script :=
  .dyn fun s =>
    let old := s.o (R.expCmd x)
    onlyIf (w != old)
      (all [ put (R.expCmd x) w, put (R.expLeft x) 4,
             put (R.expKind x) (if sf then 1 else if (old.toNat &&& w.toNat) != old.toNat then 2 else 3) ])

/-- Whether a coil is commanded on, and whether its contact reads closed in the last valid AUX. -/
def State.coilOn (s : State) (x c : Nat) : Bool := bit (s.o (R.expCmd x)) c
def State.auxClosed (s : State) (x c : Nat) : Bool := bit (s.o (R.expAux x)) c

/-- Command one coil on or off. -/
def coil (x c : Nat) (on : Bool) (sf : Bool := false) : Script :=
  .dyn fun s =>
    all [ if s.coilOn x c && !on then put (R.expOffAt x c) s.now else .skip,
          if on then put (R.expConf x) (withBit (s.o (R.expConf x)) c false) else .skip,
          command x (withBit (s.o (R.expCmd x)) c on) sf ]

/-- Whether a contact reads closed, or open, in two consecutive valid responses (R96). -/
def State.auxClosed2 (s : State) (x c : Nat) : Bool :=
  2 ≤ s.o (R.expRead x) && bit (s.o (R.expAux x)) c && bit (s.o (R.expPrev x)) c
def State.auxOpen2 (s : State) (x c : Nat) : Bool :=
  2 ≤ s.o (R.expRead x) && !bit (s.o (R.expAux x)) c && !bit (s.o (R.expPrev x)) c
/-- Whether an expander is LOST (EXP_FLAGS[3]). -/
def State.expLost (s : State) (x : Nat) : Bool := bit (s.o (R.expFlags x)) 3
/-- Whether an expander is expected (R107). -/
def State.expEnabled (s : State) (x : Nat) : Bool :=
  s.a (R.sglEnable (x / 32)) = 1 && bit (s.a (R.expEnable (x / 32))) (x % 32)

/-- Command a module's selector towards output k. -/
def selectorTo (m k : Nat) (on : Bool) : Script :=
  .dyn fun s =>
    match s.selector m k with
    | some i => coil (selExp m) (selCoil m i) on
    | none => .skip

/-- Whether every selector of a module reads open. -/
def State.selectorsOpen (s : State) (m : Nat) : Bool :=
  (upTo 8).all fun i => !s.auxClosed (selExp m) (selCoil m i)

/-- Sum of a module's four leg currents, mA. -/
def State.modI (s : State) (m : Nat) : Int := sumOver (legs m) fun n => s.o (R.chI n)
/-- Below 2 A in either direction. -/
def below2A (i : Int) : Bool := -2000 < i && i < 2000

/-! ## Placement capability (R80) -/

/-- P_m of R80. -/
def State.modP (s : State) (m : Nat) : Int := (50000 * s.legCount m * s.o (R.modDerate m) + 16384) / 32768
/-- I_m of R80. -/
def State.modIMax (s : State) (m : Nat) : Int := rne (s.a (R.modIMax m) * s.legCount m) 4
/-- V_k of R82. -/
def State.planV (s : State) (k : Nat) : Int := max 200000 (s.o (R.outReqV k))
/-- p(m,k) and c(m,k) of R80. -/
def State.pmk (s : State) (m k : Nat) : Int := min (s.modP m) (rne (s.modIMax m * s.planV k) 1000000)
def State.cmk (s : State) (m k : Nat) : Int := rne (s.pmk m k * 1000000) (s.planV k)
/-- I_dem_k of R82. -/
def State.iDem (s : State) (k : Nat) : Int := min (s.o (R.outReqI k)) (s.o (R.outCapI k))
/-- Keys of R84. -/
def outKey (frame k : Nat) : Nat := (k + 24 - frame % 24) % 24
def modKey (frame m : Nat) : Nat := (m + 48 - frame % 48) % 48

/-- The elements of a list in ascending order of a key, ties in the list's order. -/
def sortBy {α : Type} (key : α → Int) (l : List α) : List α :=
  l.foldl (fun acc x => acc.takeWhile (fun y => key y ≤ key x) ++ [x] ++ acc.dropWhile (fun y => key y ≤ key x)) []

/-! ## Refusals of the mode matrix (R38) -/

/-- Record a refusal: COUNT, LAST_ENTRY, LAST_FRAME, LAST_INDEX, LAST_SOURCE. -/
def refuse (entry index : Nat) (src : Src) : Script :=
  .dyn fun s =>
    all [ put R.refusalCount (s.o R.refusalCount + 1), put R.refusalEntry entry,
          put R.refusalFrame s.frame, put R.refusalIndex index, put R.refusalSource (srcCode src) ]

/-- Test activity TA: a stocktake or segment runs, an injection runs. -/
def State.stocktaking (s : State) : Bool := s.o R.stocktakeState != 0
def State.injecting (s : State) : Bool := s.o R.injRunning != 255

/-- The injection point d runs (R387), with the argument INJ_ARG. -/
def State.injects (s : State) (d : Nat) : Bool := s.o R.injRunning = (d : Int) && s.o (R.injState d) = 1
def State.injectsArg (s : State) (d arg : Nat) : Bool := s.injects d && s.o (R.injArg d) = (arg : Int)

/-- Set or clear a degrade flag (2030h.01); ANY is formed when the register is read (R39). -/
def degrade (b : Nat) (on : Bool) : Script :=
  .dyn fun s => put R.degradeFlags (withBit (s.o R.degradeFlags) b on)

/-- A list with an element's first match replaced or the element appended. -/
def upsert {α : Type} (same : α → Bool) (x : α) (l : List α) : List α :=
  if l.any same then l.map fun y => if same y then x else y else l ++ [x]

/-- P_MAX_W of a meter (R200).
[DEDUCED, log 12] -/
def State.pMaxW (s : State) (q : Nat) : Int :=
  if q < 24 then rne (s.a (R.outMaxV q) * 50000000000) (pos (s.a (R.shuntNohm q)) * 1000000)
  else s.a (R.gridPMax (q - 24))

end Sys2Proof.Machine
end

