-- ==== Sys2Proof/Machine/Shelver.lean ====
section
/-!
DEFINITION. The Shelver's frame computation (spec/04_shelver_placement.md R80–R90, R95): the budget split, the seed,
the auction rounds, the surplus release and the moves, all from the objects as they stood at sample 0.
-/

namespace Sys2Proof.Machine

/-- An eligible output of the snapshot (R82). -/
structure ShOut where
  k : Nat
  prio : Nat
  key : Nat
  v : Int
  iDem : Int
  dem : Int
  dMin : Int
  zero : Bool
deriving DecidableEq, Repr

/-- A module as the snapshot offers it (R81): P_m and I_m, reachability, the one output it may serve if pinned or
frozen, the eligible output it held, whether it may be bid for and released, and its penalty without ho(m,k). -/
structure ShMod where
  m : Nat
  key : Nat
  offered : Bool
  only : Option Nat
  reach : List Nat
  p : Int
  i : Int
  hold : Option Nat
  free : Bool
  locked : Bool
  dwell : Bool
  auto : Bool
  pinned : Bool
  pen : Int
deriving DecidableEq, Repr

/-- p(m,k) of R80 in the snapshot. -/
def ShMod.pmk (x : ShMod) (o : ShOut) : Int := min x.p (rne (x.i * o.v) 1000000)

/-- Whether module x may serve output k: offered, reaching it, and not bound to another. -/
def ShMod.serves (x : ShMod) (k : Nat) : Bool :=
  x.offered && x.reach.contains k && (match x.only with | none => true | some j => j = k)

/-- A pin that holds: PINNED, with the pin output still in the active reachability (R103). -/
def State.pinOf (s : State) (m : Nat) : Option Nat :=
  let k := (s.a (R.pinOutput m)).toNat
  if s.a (R.modMode m) = 1 && (s.reach m).contains k then some k else none

/-- Placement behaves as FROZEN for the whole site: SITE_MODE, a stocktake of PL (M9), D4 off (R70), or an AP reset
that holds the Shelver's requests (R77). -/
def State.siteFrozen (s : State) : Bool :=
  s.a R.siteMode = 1 || s.island iPL = 4 || s.island iPL = 0 || s.o R.apDown = 1

/-- A module that behaves as FROZEN (R103, R123). -/
def State.modFrozen (s : State) (m : Nat) : Bool := s.a (R.modMode m) = 2 || s.o (R.frozenLost m) = 1

/-- Modules in a handover in flight are locked (R87). -/
def State.inFlight (s : State) (m : Nat) : Bool := s.d.handovers.any fun h => h.inc = m || h.out = m

/-- Whether a module is neither OFFLINE nor a battery port (R86's mean of HOURS). -/
def State.counted (s : State) (m : Nat) : Bool := s.o (R.modState m) != msOffline && s.a (R.batPort m) != 1

/-- The mean H̄ of R86. -/
def State.meanHours (s : State) : Int :=
  let l := (upTo 48).filter s.counted
  if l.isEmpty then 0 else sumOver l (fun m => s.o (R.modHours m)) / l.length

/-- A module of the snapshot state `s`. -/
def shMod (s : State) (hBar : Int) (m : Nat) : ShMod :=
  let st := s.o (R.modState m)
  let h := s.holds m
  let held := if h < 24 && eligible (s.os h) then some h else none
  let pin := s.pinOf m
  let frozen := s.modFrozen m
  let unknown := bit (s.o (R.modFlags m)) 0
  let ok := (st = msAvailable || st = msAssigned || st = msPinned) && !unknown
  { m := m, key := modKey s.frame m,
    offered := ok && (!frozen || held.isSome),
    only := if frozen then held else pin,
    reach := s.reach m, p := s.modP m, i := s.modIMax m, hold := held,
    free := h = 255,
    locked := s.inFlight m || (h < 24 && held.isNone),
    dwell := bit (s.o (R.modFlags m)) 1,
    auto := pin.isNone && !frozen, pinned := pin.isSome && !frozen,
    pen := (s.o (R.modHours m) - hBar) * s.a R.wearWPerH
             + max 0 (s.a R.thermKnee - s.o (R.modHeadroom m)) * s.a R.thermW }

/-- An output of the snapshot state; D_k sums over the offered modules that reach it. -/
def shOut (s : State) (mods : List ShMod) (k : Nat) : ShOut :=
  let v := s.planV k
  let o : ShOut := ⟨k, (s.a (R.outPriority k)).toNat, outKey s.frame k, v, s.iDem k, 0, 0, s.o (R.outGrantI k) = 0⟩
  let total := sumOver (mods.filter (·.serves k)) (·.pmk o)
  { o with dem := min (rne (v * s.iDem k) 1000000) total, dMin := rne (v * s.o (R.outMinI k)) 1000000 }

/-! ## Stage 1 (R85) -/

/-- fill(C, r): equal shares, never more than the demand; pairs of output and target. -/
def shFill (c : List ShOut) (r : Int) : List (Nat × Int) :=
  let sorted := sortBy (fun o => o.dem * 32 + o.key) c
  (sorted.foldl (fun (acc : List (Nat × Int) × Int × Int) o =>
      let t := min o.dem (acc.2.1 / acc.2.2)
      (acc.1 ++ [(o.k, t)], acc.2.1 - t, acc.2.2 - 1)) ([], r, (sorted.length : Int))).1

/-- The target in a list of pairs; 0 where it lists none. -/
def targetOf (l : List (Nat × Int)) (k : Nat) : Int :=
  match l.find? (·.1 = k) with
  | some x => x.2
  | none => 0

/-- The output of highest key, if any. -/
def highestKey (l : List ShOut) : Option ShOut :=
  l.foldl (fun acc o => match acc with
    | none => some o
    | some a => if a.key < o.key then some o else some a) none

/-- One priority of R85: fill, and drop outputs below their minimum one at a time. -/
def shPriority : Nat → List ShOut → Int → List (Nat × Int)
  | 0, _, _ => []
  | fuel + 1, c, r =>
    let t := shFill c r
    let low := c.filter fun o => targetOf t o.k < o.dMin
    match highestKey (low.filter (·.zero)), highestKey low with
    | some x, _ => shPriority fuel (c.filter (·.k != x.k)) r
    | none, some x => shPriority fuel (c.filter (·.k != x.k)) r
    | none, none => t

/-- Stage 1 over the priorities 7 down to 0. -/
def shTargets (outs : List ShOut) (b : Int) : List (Nat × Int) :=
  ((upTo 8).foldl (fun (acc : List (Nat × Int) × Int) i =>
      let c := outs.filter fun o => o.prio = 7 - i && 0 < o.dem
      let t := shPriority 25 c acc.2
      (acc.1 ++ t, acc.2 - sumOver t (·.2))) ([], b)).1

/-! ## Stage 2: seed (R86), auction (R87), surplus (R88) -/

/-- What an output holds at a moment of the computation. -/
def heldPower (mods : List ShMod) (hold : List Nat) (o : ShOut) : Int :=
  sumOver (mods.filter fun x => hold.getD x.m 255 = o.k) (·.pmk o)

/-- pen(m,k) of R86. -/
def penalty (ho : Int) (x : ShMod) (k : Nat) : Int := (if x.hold = some k then 0 else ho) + x.pen

/-- Take free modules for one output until its target is covered; lowest penalty first, ties by key. -/
def shTake (ho : Int) (mods : List ShMod) (o : ShOut) (t : Int) (hold : List Nat) : List Nat :=
  let cand := sortBy (fun x => penalty ho x o.k * 64 + x.key)
    (mods.filter fun x => x.serves o.k && x.free && !x.locked && hold.getD x.m 255 = 255)
  (cand.foldl (fun (acc : List Nat × Int) x =>
      if acc.2 < t then (setAt acc.1 x.m o.k, acc.2 + x.pmk o) else acc)
    (hold, heldPower mods hold o)).1

/-- The seed: incumbents, pins, then free modules by priority and key. -/
def shSeed (ho : Int) (mods : List ShMod) (outs : List ShOut) (t : List (Nat × Int)) : List Nat :=
  let h0 := mods.map fun x =>
    match x.hold with
    | some k => if x.serves k || (x.offered && x.locked) then k else 255
    | none => 255
  let h1 := mods.foldl (fun h x =>
    match x.only with
    | some k => if x.pinned && x.offered && !x.locked && outs.any (·.k = k) then setAt h x.m k else h
    | none => h) h0
  (sortBy (fun o => (7 - (o.prio : Int)) * 32 + o.key) outs).foldl (fun h o => shTake ho mods o (targetOf t o.k) h) h1

/-- A candidate of R87 for an output. -/
def candidate (outs : List ShOut) (hold : List Nat) (x : ShMod) (k : Nat) : Bool :=
  x.serves k && hold.getD x.m 255 != k && !x.locked && (x.free || x.hold.isSome)
    && (!x.dwell || !(outs.any fun o => some o.k = x.hold))

/-- One visit of the auction: output o bids for its best candidate. -/
def shBid (ho eps : Int) (mods : List ShMod) (outs : List ShOut) (t : List (Nat × Int))
    (st : List Nat × List Int) (o : ShOut) : List Nat × List Int :=
  let delta := max 0 (targetOf t o.k - heldPower mods st.1 o)
  if delta = 0 then st
  else
    let cand := sortBy (fun x => (x.key : Int)) (mods.filter fun x => candidate outs st.1 x o.k)
    let r := cand.foldl (fun (acc : Option (Nat × Int) × Int) x =>
      let v := ((o.prio : Int) + 1) * min (x.pmk o) delta - penalty ho x o.k - st.2.getD x.m 0
      match acc.1 with
      | none => (some (x.m, v), acc.2)
      | some b => if b.2 < v then (some (x.m, v), max acc.2 b.2) else (acc.1, max acc.2 v)) (none, 0)
    match r.1 with
    | none => st
    | some (m, v1) =>
      if v1 ≤ 0 then st
      else (setAt st.1 m o.k, setAt st.2 m (st.2.getD m 0 + (v1 - r.2) + eps))

/-- The rounds of R87: every eligible output once per round, by ascending key. -/
def shAuction (rounds : Nat) (ho eps thr : Int) (mods : List ShMod) (outs : List ShOut) (t : List (Nat × Int))
    (hold : List Nat) : List Nat × List Int :=
  let order := sortBy (fun o => (o.key : Int)) outs
  let price := mods.map fun x => if x.hold.isSome && hold.getD x.m 255 = x.hold.getD 255 then thr else 0
  ((upTo rounds).foldl (fun st _ => order.foldl (shBid ho eps mods outs t) st) (hold, price))

/-- Surplus of one output (R88): release the AUTO module of largest penalty while the rest still covers T_k.
[DEDUCED, log 22] -/
def shSurplus (mods : List ShMod) (o : ShOut) (t : Int) : Nat → List Nat → List Nat
  | 0, hold => hold
  | fuel + 1, hold =>
    let tot := heldPower mods hold o
    let c := mods.filter fun x =>
      hold.getD x.m 255 = o.k && x.auto && !x.dwell && !x.locked && decide (t ≤ tot - x.pmk o)
    match (sortBy (fun x => -(x.pen * 64 + x.key)) c).head? with
    | none => hold
    | some x => shSurplus mods o t fuel (setAt hold x.m 255)

/-- Gains and releases of an output, in ascending key order, paired into moves (R88). -/
def shMoves (mods : List ShMod) (hold : List Nat) (o : ShOut) : List Move :=
  let byKey := sortBy (fun x => (x.key : Int)) mods
  let gains := (byKey.filter fun x => x.offered && x.hold.isNone && hold.getD x.m 255 = o.k).map (·.m)
  let gone := (byKey.filter fun x => x.offered && x.hold = some o.k && hold.getD x.m 255 = 255).map (·.m)
  let won := (byKey.filter fun x =>
    x.offered && x.hold = some o.k && hold.getD x.m 255 != 255 && hold.getD x.m 255 != o.k).map (·.m)
  (List.zip gains gone).map (fun p => ⟨p.1, p.2, o.k, o.k, 255⟩)
    ++ (gains.drop gone.length).map (fun m => ⟨m, 255, o.k, o.k, 255⟩)
    ++ (gone.drop gains.length).map (fun m => ⟨255, m, o.k, o.k, 255⟩)
    ++ won.map (fun m => ⟨255, m, o.k, hold.getD m 255, hold.getD m 255⟩)

/-- R90's order: receiving output's priority descending, key ascending, drains last, then key(m). -/
def moveRank (outs : List ShOut) (frame : Nat) (mv : Move) : Int :=
  let drain := mv.inc = 255 && mv.cross = 255
  let o := outs.find? (·.k = mv.recv)
  let pr : Int := match o with | some x => 7 - (x.prio : Int) | none => 8
  let ky : Int := match o with | some x => x.key | none => 31
  let m := if mv.inc = 255 then mv.out else mv.inc
  ((if drain then 1 else 0) * 16 + pr) * 4096 + ky * 64 + modKey frame m

/-- The round count that sample 0 fixes (R36, R72): by the power cap, and at most 32 in die band T4 (R213). -/
def State.rounds (s : State) : Nat :=
  let cap := s.a R.plPowerCap
  let r := if cap = 0 || 450 ≤ cap then 64 else if 300 ≤ cap then 32 else if 200 ≤ cap then 16 else 8
  if s.o R.band = 4 then min r 32 else r

/-- G of R83, and B. -/
def State.gridBudget (s : State) : Int :=
  max 0 (((s.a R.importLimitW - s.a R.auxReserveW - s.o R.trimW) * s.a R.gridEff + 16384) / 32768)

/-- The whole frame computation on the snapshot state `s` (R85–R90; frozen: R95). -/
def shelve (s : State) : ShResult :=
  let hBar := s.meanHours
  let mods := (upTo 48).map (shMod s hBar)
  let outs := ((upTo 24).filter fun k => eligible (s.os k)).map (shOut s mods)
  let g := s.gridBudget
  let b := g + s.o R.batDisW
  let frozen := s.siteFrozen
  let t := if frozen then outs.map (fun o => (o.k, s.o (R.outTargetW o.k))) else shTargets outs b
  let ho := s.a R.handoverPenaltyW
  let seed := shSeed ho mods outs t
  let won := shAuction (s.o R.plRounds).toNat ho (s.a R.bidEpsW) (s.a R.rerouteThresholdW) mods outs t seed
  let fin := (sortBy (fun o => (o.key : Int)) outs).foldl
    (fun h o => shSurplus mods o (targetOf t o.k) 48 h) won.1
  let hold := mods.map fun x => if x.offered then fin.getD x.m 255 else s.holds x.m
  let moves := sortBy (moveRank outs s.frame)
    ((sortBy (fun o => (o.key : Int)) outs).flatMap (shMoves mods fin))
  { frame := s.frame, frozen := frozen, g := g, b := b,
    target := (upTo 24).map (targetOf t),
    iDem := (upTo 24).map fun k => if eligible (s.os k) then s.iDem k else 0,
    planV := (upTo 24).map s.planV,
    hold := if frozen then (upTo 48).map s.holds else hold,
    moves := if frozen then [] else moves, prices := won.2 }

/-- SHELVER_FRAME (R85): once a frame, in samples 25 to 124, from the objects as they stood at sample 0. BUDGET_W
shows B. -/
def execShelverFrame (s : State) : Host.Outcome State Fault Refusal :=
  doesIf (fun s => s.o R.caRun = 1 && s.o R.shDone != 1 && s.o R.inGap != 1
      && 25 ≤ s.sample && s.sample ≤ 124 && s.island iPL != 0 && s.island iPL != 5)
    (.dyn fun s =>
      let r := shelve { s with objs := s.d.snap0, d := { s.d with handovers := s.d.snapHo } }
      all [ put R.budgetW r.b, put R.shDone 1, put R.shValid 1,
            upd fun d => { d with shRes := some r } ]) s

end Sys2Proof.Machine
end

