-- ==== Sys2Proof/Machine/Views.lean ====
section
/-!
DEFINITION. What a read returns (R41–R44): the three copies, and the objects that are formed when they are read; and the
commit group of an object (R25).
-/

namespace Sys2Proof.Machine

/-! ## Groups (R25) -/

def gPlace : Nat := 264
def gNet : Nat := 265
def gSafe : Nat := 266
def gMet : Nat := 267

/-- The commit group of an object: the number of its control object less 2100h. -/
def grpOf (k : Key) : Option Nat :=
  match findRow k with
  | none => none
  | some (i, r) =>
    match r.grp with
    | .none => none
    | .ch => some i
    | .pm => some (192 + i)
    | .out => some (240 + i)
    | .place => some gPlace
    | .net => some gNet
    | .safe => some gSafe
    | .met => some gMet

/-- Whether an object has an active and a shadow copy: RWS, or RWL of a group. -/
def shadowed (k : Key) : Bool :=
  match findRow k with
  | some (_, r) => (match r.acc with | .rws => true | .rwl _ => r.grp != .none | _ => false)
  | none => false

/-- Whether an RWL object without a group: its only copy is the active one. -/
def plainRwl (k : Key) : Bool :=
  match findRow k with
  | some (_, r) => (match r.acc with | .rwl _ => r.grp = .none | _ => false)
  | none => false

/-- The keys of a group that an active copy or a shadow lists. -/
def State.groupKeys (s : State) (g : Nat) : List Key :=
  ((s.active ++ s.shadow).map (·.1)).filter fun k => grpOf k = some g && shadowed k

/-- PENDING (R25). -/
def State.pendingOf (s : State) (g : Nat) : Bool := (s.groupKeys g).any fun k => s.sh k != s.a k

/-- Items of an object that are not present on the part (R5): its channel, module, output or meter lies beyond the
part's. -/
def State.absent (s : State) (k : Key) : Bool :=
  let ix := k / 256
  let within := fun (base count present : Nat) => base ≤ ix && ix < base + count && present ≤ ix - base
  within 0x3000 192 s.nCh || within 0x3100 192 s.nCh || within 0x3200 192 s.nCh || within 0x2100 192 s.nCh
    || within 0x21C0 48 s.nPm || within 0x21F0 24 s.nOut
    || within 0x2840 48 s.nPm || within 0x3400 48 s.nPm || within 0x3480 48 s.nPm || within 0x34C0 48 s.nPm
    || within 0x3600 24 s.nOut || within 0x3800 24 s.nOut || within 0x3C80 48 s.nPm || within 0x3D00 24 s.nOut
    || within 0x3F80 48 s.nPm || within 0x4010 24 s.nOut || within 0x4040 24 s.nOut || within 0x4840 24 s.nOut

/-! ## Reads -/

/-- A flag word with its bit 0 formed as the OR of the others. -/
def anyOf (v : Int) (hi : Nat) : Int := withBit v 0 ((upTo hi).any fun i => bit v (i + 1))

/-- Q_FLAGS (R373, R374). -/
def Queue.flags (q : Queue) : Int :=
  ofBool (q.words.length = 1024) + 2 * ofBool q.overrun
    + 4 * ofBool (decide (0 < q.gapCount) || q.words.any Queue.isGap) + 8 * ofBool q.uncorr

/-- Q_PEEK (R375): the oldest 64 words, zero-filled. -/
def Queue.peek (q : Queue) : Int := (q.words.take 64).foldr (fun w a => (w % 2 ^ 64 : Nat) + 2 ^ 64 * a) 0

/-- The subindices of 3200h + n. -/
def coefSubs : List Nat := [1, 2] ++ (upTo 12).map (16 + ·) ++ (upTo 12).map (32 + ·)

/-- Whether a channel's 3200h shadows differ from their active copies (R141). -/
def State.coefDiffers (s : State) (n : Nat) : Bool :=
  coefSubs.any fun i => s.a ((0x3200 + n) * 256 + i) != s.sh ((0x3200 + n) * 256 + i)

/-- Objects formed when they are read; `none` for the others.
[DEDUCED, log 12] -/
def State.formed (s : State) (k : Key) : Option Int :=
  let ix := k / 256
  let sub := k % 256
  if sub = 0 then (highestSub ix).map fun n => (n : Int)
  else if 0x2100 ≤ ix && ix < 0x220C && sub = 5 then some (ofBool (s.pendingOf (ix - 0x2100)))
  else if 0x4C40 ≤ ix && ix < 0x4C80 && sub = 2 then some (s.queue (ix - 0x4C40)).words.length
  else if 0x4C40 ≤ ix && ix < 0x4C80 && sub = 3 then some (s.queue (ix - 0x4C40)).flags
  else if 0x4C40 ≤ ix && ix < 0x4C80 && sub = 4 then some (s.queue (ix - 0x4C40)).peek
  else if 0x3800 ≤ ix && ix < 0x3818 && sub = 0x1A then some (s.pMaxW (ix - 0x3800))
  else if 0x3100 ≤ ix && ix < 0x31C0 && sub = 0x0D then some (withBit (s.o k) 2 (s.coefDiffers (ix - 0x3100)))
  else if k = R.associations then some s.d.assocs.length
  else if k = R.injPermitLeftS then
    some (if s.o R.permitEnd < 0 then 0 else clamp 0 4294967295 (cdiv (s.o R.permitEnd - s.now) 1000000000))
  else if k = R.degradeFlags then some (anyOf (s.o k) 7)
  else if k = R.pairAlarm then some (anyOf (s.o k) 7)
  else if k = R.health then some (anyOf (s.o k) 8)
  else none

/-- What a read returns: the active copy of an object that has one, or its shadow where the request asks for it.
[DEDUCED, log 12] -/
def State.read (s : State) (k : Key) (shadow : Bool) : Int :=
  match s.formed k with
  | some v => v
  | none => if shadowed k then (if shadow then s.sh k else s.a k) else if plainRwl k then s.a k else s.o k

/-- The bytes of a value on a transport (R42). -/
def valueBytes (t : Ty) (v : Int) : List Byte :=
  let n := t.bytes
  (upTo n).map fun i => BitVec.ofNat 8 ((v % (256 ^ n : Nat)).toNat / 256 ^ i)

/-- The value of bytes in a type (R42). -/
def ofBytes (t : Ty) (l : List Byte) : Int :=
  let u : Nat := l.foldr (fun b a => b.toNat + 256 * a) 0
  if t.signed && 256 ^ l.length ≤ 2 * u then (u : Int) - (256 ^ l.length : Nat) else u

end Sys2Proof.Machine
end

