-- ==== Sys2Proof/Machine/Channels.lean ====
section
/-!
DEFINITION. What several chapters do to legs and modules: channel states and close requests (R141, R151), the module
state of R81, the fall of a grant with its capability (R92), share weights (R93), releases (M1) and quarantine (R102).
-/

namespace Sys2Proof.Machine

/-- Put a channel into a state other than CLOSED: its loop is not run and its state is cleared (R151). -/
def setCh (n : Nat) (st : Int) : Script :=
  all [ put (R.chState n) st, put (R.chZ1 n) 0, put (R.chZ2 n) 0, put (R.chRef n) 0, put (R.chIRef n) 0 ]

/-- The bank a channel would run, and whether it has passed its load check (R142). -/
def State.bankStatus (s : State) (n : Nat) : Int :=
  if s.o (R.bankInUse n) = 1 then s.o (R.bankBStatus n) else s.o (R.bankAStatus n)

/-- A close request (R151): from OPEN, if rule 11h and R141 permit and an engine slot holds the channel; a
difference of the coefficient shadows holds it back. -/
def closeLeg (n : Nat) : Script :=
  .dyn fun s =>
    if s.cs n != csOpen then .skip
    else if s.coefDiffers n then .skip
    else if s.bankStatus n = 1 && s.o (R.chEngine n) != 255 && s.island iCA != 0 && s.a (R.chEnable n) = 1 then
      all [ put (R.chState n) csClosed, put (R.chZ1 n) 0, put (R.chZ2 n) 0, put (R.modOff (n / 4)) 0 ]
    else .skip

/-- A leg from CLOSED to OPEN. -/
def openLeg (n : Nat) : Script := .dyn fun s => onlyIf (s.cs n = csClosed) (setCh n csOpen)

/-- Open the legs of a module. -/
def openModule (m : Nat) : Script := .seq (each (legs m) openLeg) (put (R.modOff m) 0)

/-! ## The module's state (R81) -/

/-- MOD_STATE by R81's precedence. -/
def State.modStateOf (s : State) (m : Nat) : Int :=
  if s.nPm ≤ m || (s.reach m).isEmpty || s.a (R.batPort m) = 1 || s.legCount m = 0 || s.island iCA = 0 then msOffline
  else if 0 ≤ s.o (R.quarNs m) then msQuarantined
  else if s.o (R.relState m) != 0 || s.d.handovers.any (fun h => h.out = m && 3 ≤ h.step) then msDraining
  else if (s.pinOf m).isSome then msPinned
  else if s.holds m != 255 then msAssigned
  else msAvailable

/-- Bring MOD_STATE, CAP_W and MOD_FLAGS[2] PIN_VOID up to date. -/
def refreshMod (m : Nat) : Script :=
  .dyn fun s =>
    all [ put (R.modState m) (s.modStateOf m), put (R.modCapW m) (s.modP m),
          put (R.modFlags m) (withBit (s.o (R.modFlags m)) 2
            (s.a (R.modMode m) = 1 && (s.pinOf m).isNone)) ]

/-- OUT_MODULES: the modules that hold output k. -/
def refreshOut (k : Nat) : Script :=
  .dyn fun s => put (R.outModules k) (((upTo 48).filter fun m => s.holds m = k).foldl (fun a m => a + 2 ^ m) 0)

/-! ## Capability and grant (R91, R92) -/

/-- Σ c(m,k) over what counts as connected: with a re-route in flight, the lesser of the two sets (R91). -/
def State.connectedCap (s : State) (k : Nat) : Int :=
  let conn := s.connected k
  let re := s.d.handovers.filter fun h => h.k = k && h.inc != 255 && h.out != 255 && h.step ≤ 3
  let other := (conn.filter fun m => !(re.any (·.out = m))) ++ (re.map (·.inc)).filter fun m => !conn.contains m
  let a := sumOver conn (s.cmk · k)
  if re.isEmpty then a else min a (sumOver other (s.cmk · k))

/-- A grant no capability backs is 0 below the session's minimum (R91). -/
def floorGrant (g minI : Int) : Int := if g < minI then 0 else max 0 g

/-- The grant falls with the capability behind it (R92). -/
def regrant (k : Nat) : Script :=
  .dyn fun s => put (R.outGrantI k) (floorGrant (min (s.o (R.outGrantI k)) (s.connectedCap k)) (s.o (R.outMinI k)))

/-- What follows when a leg of a module leaves OPEN or CLOSED or its capability falls: the dwell no longer protects
it (R90), the module's state and its output's grant follow (R92, M3). -/
def capabilityFell (m : Nat) : Script :=
  .dyn fun s =>
    all [ put (R.dwellEnd m) (-1), put (R.modFlags m) (withBit (s.o (R.modFlags m)) 1 false), refreshMod m,
          match s.connTo m with
          | some k => regrant k
          | none => .skip ]

/-! ## Share weights (R93) -/

/-- Weights in Q1.15 for modules with their currents: floors, and the remainder by ascending key(m). -/
def weightsOf (frame : Nat) (l : List (Nat × Int)) : List (Nat × Int) :=
  let tot := sumOver l (·.2)
  if tot ≤ 0 then l.map fun x => (x.1, 0)
  else
    let fl := l.map fun x => (x.1, x.2 * 32768 / tot)
    let rest := (32768 - sumOver fl (·.2)).toNat
    let order := (sortBy (fun x => (modKey frame x.1 : Int)) fl).map (·.1)
    let plus := order.take rest
    fl.map fun x => if plus.contains x.1 then (x.1, x.2 + 1) else x

/-- The modules of output k that are connected and not draining, with c(m,k). -/
def State.sharers (s : State) (k : Nat) : List (Nat × Int) :=
  ((s.connected k).filter fun m => s.o (R.modState m) != msDraining).map fun m => (m, s.cmk m k)

/-- Put weights: the listed ones, and 0 for the output's other holders. -/
def putWeights (k : Nat) (w : List (Nat × Int)) : Script :=
  .dyn fun s =>
    .seq (each ((upTo 48).filter fun m => s.connTo m = some k || s.holds m = k) fun m =>
            put (R.modShare m) (match w.find? (·.1 = m) with | some x => x.2 | none => 0))
         .skip

/-- The weights of R93 for output k, formed now. -/
def formWeights (k : Nat) : Script :=
  .dyn fun s => onlyIf (s.o (R.rampOn k) != 1) (putWeights k (weightsOf s.frame (s.sharers k)))

/-- A ramp of weights over OUT_HO_RAMP (R97): J outer periods from the first that begins at or after now; the old
weights are those in force, the new ones as listed. The absorbing module is the one of lowest key with a new weight. -/
def startRamp (k : Nat) (mods : List Nat) (new : List (Nat × Int)) : Script :=
  .dyn fun s =>
    let n := s.a (R.outerDiv k)
    let g : Int := 500 * s.frame
    let absorb := ((sortBy (fun x => (modKey s.frame x.1 : Int)) (new.filter fun x => 0 < x.2)).head?).map (·.1)
    all [ each mods fun m =>
            all [ put (R.modOldW m) (s.o (R.modShare m)),
                  put (R.modNewW m) (match new.find? (·.1 = m) with | some x => x.2 | none => 0) ],
          put (R.ramp0 k) (cdiv g n * n), put (R.rampN k) (cdiv (s.a (R.outHoRamp k)) (n * 2)),
          put (R.rampKey k) (match absorb with | some m => m | none => -1), put (R.rampOn k) 1 ]

/-- Whether the ramp's last period has ended (R97). The count of samples is taken modulo the wrap of FRAME_NO. -/
def State.rampDone (s : State) (k : Nat) : Bool :=
  s.o (R.rampOn k) = 1 &&
    decide (s.o (R.rampN k) * s.a (R.outerDiv k) ≤ (500 * (s.frame : Int) + (s.next.val : Int) % 500
      + (if s.next.val = 500 then 500 else 0) - s.o (R.ramp0 k)) % 2147483648000)

/-- The weights of period j of a ramp (R97): each module's, then the difference absorbed. -/
def rampWeights (j jAll : Int) (absorb : Int) (l : List (Nat × Int × Int)) : List (Nat × Int) :=
  let w := l.map fun x => (x.1, x.2.1 + rne ((x.2.2 - x.2.1) * j) jAll)
  let d := 32768 - sumOver w (·.2)
  w.map fun x => if (x.1 : Int) = absorb then (x.1, x.2 + d) else x

/-! ## Releases and quarantine -/

/-- Release a module from its output (M1, R99): legs open, weight gone; its selector opens once it is below 2 A. -/
def releaseModule (m : Nat) : Script :=
  .dyn fun s =>
    let k := s.holds m
    onlyIf (k != 255)
      (all [ openModule m, put (R.modConn m) 0, put (R.modShare m) 0, put (R.nodeState m) 0,
             put (R.relState m) 1, put (R.relOut m) k, put (R.modOutput m) 255,
             put (R.dwellEnd m) (-1), put (R.modFlags m) (withBit (s.o (R.modFlags m)) 1 false),
             upd fun d => { d with handovers := d.handovers.filter fun h => h.inc != m && h.out != m },
             refreshMod m, refreshOut k ])

/-- A release goes on at each PFB: the selector is commanded open once the module is below 2 A (R98), and the module
is free at the first PFB after its contact reads open in two responses (R81). -/
def releaseStep (m : Nat) : Script :=
  .dyn fun s =>
    let k := (s.o (R.relOut m)).toNat
    if s.o (R.relState m) = 1 && below2A (s.modI m) then
      all [ selectorTo m k false, put (R.relState m) 2, refreshMod m ]
    else if s.o (R.relState m) = 2 then
      match s.selector m k with
      | some i => onlyIf (s.auxOpen2 (selExp m) (selCoil m i)) (all [put (R.relState m) 0, refreshMod m])
      | none => all [put (R.relState m) 0, refreshMod m]
    else .skip

/-- Quarantine (R102): gates off, out of its output; QUAR_COUNT counts consecutive quarantines of one cause. -/
def quarantine (m : Nat) (cause : Int) : Script :=
  .dyn fun s =>
    let k := s.holds m
    all [ openModule m, put (R.modConn m) 0, put (R.modShare m) 0, put (R.nodeState m) 0,
          put (R.quarNs m) s.now, put (R.modOutput m) 255,
          put (R.quarCount m) (if s.o (R.quarCause m) = cause then s.o (R.quarCount m) + 1 else 1),
          put (R.quarCause m) cause,
          upd fun d => { d with handovers := d.handovers.filter fun h => h.inc != m && h.out != m },
          put (R.dwellEnd m) (-1), put (R.modFlags m) (withBit (s.o (R.modFlags m)) 1 false),
          refreshMod m, if k < 24 then .seq (refreshOut k) (regrant k) else .skip ]

end Sys2Proof.Machine
end

