-- ==== Sys2Proof/Machine/Handover.lean ====
section
/-!
DEFINITION. Handovers and the application of a Shelver result (spec/04_shelver_placement.md R90–R103): the commands
mark a step's condition or its timeout, and each next step begins at a PFB.
-/

namespace Sys2Proof.Machine

/-- The handover in an entry of 2820h. -/
def State.ho (s : State) (e : Nat) : Option Handover := s.d.handovers.find? (·.slot = e)

/-- HANDOVER_n of 2820h: [31:24] incoming, [23:16] outgoing, [15:8] output, [7:4] step. -/
def hoWord (h : Handover) : Int := h.inc * 16777216 + h.out * 65536 + h.k * 256 + h.step * 16

/-- Bring 2820h and HO_IN_FLIGHT up to date. -/
def refreshHo : Script :=
  .dyn fun s =>
    .seq (each (upTo 12) fun e =>
            put (R.handover e) (match s.ho e with | some h => hoWord h | none => 0xFFFFFF00))
         (put R.hoInFlight s.d.handovers.length)

/-- Replace a handover's record. -/
def setHo (h : Handover) : Script :=
  upd fun d => { d with handovers := d.handovers.map fun x => if x.slot = h.slot then h else x }

/-- End a handover: its entry clears. -/
def endHo (e : Nat) : Script :=
  .seq (upd fun d => { d with handovers := d.handovers.filter (·.slot != e) }) refreshHo

/-- A command about the handover of entry `e`, with its effect. -/
def onHo (e : Nat) (f : Handover → Script) : Script :=
  .dyn fun s => match s.ho e with
    | some h => f h
    | none => .skip

/-- Whether the handover of entry `e` is in a step and not yet done with it, and a condition holds. -/
def State.hoIs (s : State) (e : Nat) (step : Nat) (c : Handover → Bool) : Bool :=
  match s.ho e with
  | some h => h.step = step && !h.met && c h
  | none => false

/-- The condition of the present step is met; the next begins at the PFB (R96). -/
def meetHo (e : Nat) : Script := onHo e fun h => setHo { h with met := true }

/-- HANDOVER_PREREG_DONE (R96 step 1): the node within ±2 V of the output for 200 consecutive samples. -/
def execHandoverPreregDone (e : HoSlot) (s : State) : Host.Outcome State Fault Refusal :=
  doesIf (fun s => s.hoIs e 1 fun h => 200 ≤ s.o (R.nodeCnt h.inc)) (meetHo e) s

/-- PREREG_TIMEOUT (R96 step 1): 15 ms from the step's start; incoming gates off, QUARANTINED with cause 1. -/
def execPreregTimeout (e : HoSlot) (s : State) : Host.Outcome State Fault Refusal :=
  doesIf (fun s => s.hoIs e 1 fun h => 15000 ≤ s.usSince h.startNs)
    (onHo e fun h => .seq (quarantine h.inc 1) refreshHo) s

/-- Whether module m's selector towards k reads closed, or open, in two consecutive link cycles. -/
def State.selClosed2 (s : State) (m k : Nat) : Bool :=
  match s.selector m k with
  | some i => s.auxClosed2 (selExp m) (selCoil m i)
  | none => false
def State.selOpen2 (s : State) (m k : Nat) : Bool :=
  match s.selector m k with
  | some i => s.auxOpen2 (selExp m) (selCoil m i)
  | none => true

/-- HANDOVER_SELECTOR_CLOSED (R96 step 2): the contact reads closed in 2 cycles; the dwell starts here (R90). -/
def execHandoverSelectorClosed (e : HoSlot) (s : State) : Host.Outcome State Fault Refusal :=
  doesIf (fun s => s.hoIs e 2 fun h => s.selClosed2 h.inc h.k)
    (onHo e fun h => .dyn fun s =>
      all [ put (R.dwellEnd h.inc) (s.now + s.a R.dwellUs * 1000),
            put (R.modFlags h.inc) (withBit (s.o (R.modFlags h.inc)) 1 true),
            put (R.outJoinCount h.k) (if s.o (R.outJoinFrame h.k) = h.frame then s.o (R.outJoinCount h.k) + 1 else 1),
            put (R.outJoinFrame h.k) h.frame, meetHo e ]) s

/-- The GRANT_SHORTFALL and MODULE_QUARANTINED words of R101. -/
def shortfall (h : Handover) (cause : Nat) : Script :=
  .dyn fun s =>
    let joined := if s.o (R.outJoinFrame h.k) = h.frame then (s.o (R.outJoinCount h.k)).toNat else 0
    all [ put (R.outShortfall h.k) (s.o (R.outShortfall h.k) + 1),
          event (R.outEventQueue h.k) 0x31 h.k (h.planned * 256 + joined),
          event (R.outEventQueue h.k) 0x32 h.inc (cause * 256 + h.k) ]

/-- SEL_CLOSE_TIMEOUT (R96 step 2, R101): 30 ms from the command; the selector is commanded open again, the module
QUARANTINED with cause 2, and the shortfall recorded. -/
def execSelCloseTimeout (e : HoSlot) (s : State) : Host.Outcome State Fault Refusal :=
  doesIf (fun s => s.hoIs e 2 fun h => 30000 ≤ s.usSince h.startNs)
    (onHo e fun h => all [ selectorTo h.inc h.k false, quarantine h.inc 2, refreshHo, shortfall h 2 ]) s

/-- HANDOVER_RAMP_END (R97): the last period of the ramp has ended; the PFB ends step 3. -/
def execHandoverRampEnd (e : HoSlot) (s : State) : Host.Outcome State Fault Refusal :=
  doesIf (fun s => s.hoIs e 3 fun h => s.rampDone h.k) (meetHo e) s

/-- HANDOVER_DRAIN_DONE (R96 step 4): the outgoing module's current below 2 A for 50 consecutive samples. -/
def execHandoverDrainDone (e : HoSlot) (s : State) : Host.Outcome State Fault Refusal :=
  doesIf (fun s => s.hoIs e 4 fun h =>
      50 ≤ s.o (R.drainCnt h.out) || (h.fallback && below2A (s.modI h.out))) (meetHo e) s

/-- DRAIN_STUCK (R96 step 4): 20 ms after the ramp's end the outgoing gates go off; 10 ms later, if the current is
not below 2 A, the selector stays closed and the module is QUARANTINED with cause 3. -/
def execDrainStuck (e : HoSlot) (s : State) : Host.Outcome State Fault Refusal :=
  doesIf (fun s => s.hoIs e 4 fun h =>
      (!h.fallback && decide (20000 ≤ s.usSince h.startNs))
        || (h.fallback && decide (30000 ≤ s.usSince h.startNs) && !below2A (s.modI h.out)))
    (onHo e fun h =>
      if h.fallback then all [ quarantine h.out 3, refreshHo ]
      else .seq (put (R.modOff h.out) 1) (setHo { h with fallback := true })) s

/-- HANDOVER_SELECTOR_OPENED (R96 step 5): the contact reads open in 2 cycles; the PFB completes the handover. -/
def execHandoverSelectorOpened (e : HoSlot) (s : State) : Host.Outcome State Fault Refusal :=
  doesIf (fun s => s.hoIs e 5 fun h => s.selOpen2 h.out h.k) (meetHo e) s

/-- The open command that is repeated in every cycle until the contact reads open (R96 step 5, R121). -/
def holdOpen (m k : Nat) : Script :=
  .dyn fun s => match s.selector m k with
    | some i => put (R.expHold (selExp m)) (withBit (s.o (R.expHold (selExp m))) (selCoil m i) true)
    | none => .skip

/-- SEL_OPEN_TIMEOUT (R96 step 5): 20 ms from the command; QUARANTINED with cause 4, the open command repeats. -/
def execSelOpenTimeout (e : HoSlot) (s : State) : Host.Outcome State Fault Refusal :=
  doesIf (fun s => s.hoIs e 5 fun h => 20000 ≤ s.usSince h.startNs)
    (onHo e fun h => all [ holdOpen h.out h.k, quarantine h.out 4, refreshHo ]) s

/-- DWELL_EXPIRY (R90): DWELL_US after the selector was confirmed closed. -/
def execDwellExpiry (m : Pm) (s : State) : Host.Outcome State Fault Refusal :=
  doesIf (fun s => 0 ≤ s.o (R.dwellEnd m) && decide (s.o (R.dwellEnd m) ≤ s.now))
    (.dyn fun s => all [ put (R.dwellEnd m) (-1), put (R.modFlags m) (withBit (s.o (R.modFlags m)) 1 false) ]) s

/-- The end of a quarantine (R102). -/
def endQuarantine (m : Nat) : Script := .seq (put (R.quarNs m) (-1)) (refreshMod m)

/-- QUARANTINE_RELEASE (R102): causes 1 and 2 end after QUAR_HOLD_US unless QUAR_COUNT has reached 3. -/
def execQuarantineRelease (m : Pm) (s : State) : Host.Outcome State Fault Refusal :=
  doesIf (fun s => 0 ≤ s.o (R.quarNs m) && (s.o (R.quarCause m) = 1 || s.o (R.quarCause m) = 2)
      && s.o (R.quarCount m) < 3 && decide (s.a R.quarHoldUs ≤ s.usSince (s.o (R.quarNs m))))
    (endQuarantine m) s

/-- What a write to QUAR_CLEAR does when it takes effect (R102). -/
def applyQuarClear (m : Nat) : Script :=
  .dyn fun s => onlyIf (0 ≤ s.o (R.quarNs m) && s.selectorsOpen m && below2A (s.modI m)) (endQuarantine m)

/-! ## At the PFB -/

/-- The next step of a handover whose condition is met (R96). -/
def hoStep (h : Handover) : Script :=
  .dyn fun s =>
    if !h.met then .skip
    else if h.step = 1 then
      all [ selectorTo h.inc h.k true, setHo { h with step := 2, met := false, startNs := s.now } ]
    else if h.step = 2 then
      -- a step 3 whose output is already ramping waits for the next PFB (log 21)
      onlyIf (s.o (R.rampOn h.k) != 1)
        (all [ put (R.nodeState h.inc) 0, setHo { h with step := 3, met := false, startNs := s.now } ])
    else if h.step = 3 then
      all [ if h.inc = 255 then .skip else put (R.modConn h.inc) (h.k + 1),
            if h.out = 255 then
              all [ put (R.quarCount h.inc) 0, upd fun d => { d with handovers := d.handovers.filter (·.slot != h.slot) } ]
            else
              all [ put (R.modConn h.out) 0, put (R.modShare h.out) 0,
                    setHo { h with step := 4, met := false, startNs := s.now } ],
            put (R.rampOn h.k) 0 ]
    else if h.step = 4 then
      all [ openModule h.out, selectorTo h.out h.k false,
            setHo { h with step := 5, met := false, startNs := s.now } ]
    else
      all [ put (R.modOutput h.out) 255, put (R.quarCount h.out) 0,
            if h.inc = 255 then .skip else put (R.quarCount h.inc) 0,
            upd fun d => { d with handovers := d.handovers.filter (·.slot != h.slot) }, refreshOut h.k ]

/-- The ramp of the handovers that entered step 3 at this PFB: one ramp per output (R97). New weights are those of
R93 with the incoming modules included and the outgoing ones excluded.
[DEDUCED, log 21] -/
def hoRamps (before : List Handover) (k : Nat) : Script :=
  .dyn fun s =>
    let fresh := s.d.handovers.filter fun h =>
      h.k = k && h.step = 3 && !(before.any fun b => b.slot = h.slot && b.step = 3 && b.inc = h.inc && b.out = h.out)
    onlyIf (!fresh.isEmpty)
      (let ins := (fresh.map (·.inc)).filter (· != 255)
       let outs := fresh.map (·.out)
       let old := s.connected k
       let stay := (old.filter fun m => !(outs.contains m) && s.o (R.modState m) != msDraining) ++ ins
       startRamp k (old ++ ins) (weightsOf s.frame (stay.map fun m => (m, s.cmk m k))))

/-- Every handover's due step, then the ramps that start.
[DEDUCED, log 21] -/
def handoverPfb : Script :=
  .dyn fun s =>
    let before := s.d.handovers
    all [ each before hoStep, each (upTo 24) (hoRamps before),
          each before fun h => all [ if h.inc = 255 then .skip else refreshMod h.inc,
                                     if h.out = 255 then .skip else refreshMod h.out ],
          refreshHo ]

/-- The first free entry of 2820h. -/
def State.freeSlot (s : State) : Option Nat := (upTo 12).find? fun e => (s.ho e).isNone

/-- Handovers in flight that involve output k (R90): its own, and drains of another output that it won. -/
def hoCount (l : List Handover) (k : Nat) : Nat := (l.filter fun h => h.k = k).length

/-- Start one move of a result if the limits of R90 and its modules' state permit; else it is deferred. -/
def startMove (frame : Nat) (planned : Nat → Nat) (mv : Move) : Script :=
  .dyn fun s =>
    let okIn := mv.inc = 255 || s.o (R.modState mv.inc) = msAvailable || (s.o (R.modState mv.inc) = msPinned && s.holds mv.inc = 255)
    let okOut := mv.out = 255 || s.holds mv.out = mv.k
    let room := decide (hoCount s.d.handovers mv.k < (s.a R.hoMaxOut).toNat)
      && (mv.cross = 255 || decide (hoCount s.d.handovers mv.cross < (s.a R.hoMaxOut).toNat))
      && decide (s.d.handovers.length < (s.a R.hoMaxSite).toNat)
      && (mv.inc != 255 || s.o (R.rampOn mv.k) != 1)
    if !(okIn && okOut && eligible (s.os mv.k)) then .skip
    else match s.freeSlot, room with
      | some e, true =>
        all [ upd fun d => { d with handovers := d.handovers ++
                [⟨e, mv.inc, mv.out, mv.k, if mv.inc = 255 then 3 else 1, s.now, false, false, planned mv.k, frame⟩] },
              if mv.inc = 255 then .skip
              else all [ put (R.modOutput mv.inc) mv.k, put (R.nodeState mv.inc) 1, put (R.nodeCnt mv.inc) 0,
                         put (R.drainCnt mv.inc) 0, each (legs mv.inc) closeLeg, refreshMod mv.inc ],
              if mv.out = 255 then .skip else all [ put (R.drainCnt mv.out) 0, refreshMod mv.out ],
              refreshOut mv.k ]
      | _, _ => bump R.movesDeferred

/-- A PINNED module whose output is not the one it holds, or a free one, is placed by the result's moves; what is
left is the grant of R91 for every output. -/
def grantOut (r : ShResult) (k : Nat) : Script :=
  .dyn fun s =>
    if eligible (s.os k) then
      let t := r.target.getD k 0
      let v := r.planV.getD k 200000
      let g := min (min (r.iDem.getD k 0) (rne (t * 1000000) v)) (s.connectedCap k)
      let g := floorGrant g (s.o (R.outMinI k))
      let g := if r.frozen then min (s.o (R.outGrantI k)) g else g
      all [ put (R.outTargetW k) t, put (R.outIdem k) (r.iDem.getD k 0), put (R.outGrantI k) g ]
    else all [ put (R.outTargetW k) 0, put (R.outGrantI k) 0 ]

/-- The battery set-point and its split among the strings (R94); the pairs are string and power. -/
def batSplit (total : Int) (cap : List Int) : List Int :=
  let sum := sumOver cap id
  if sum ≤ 0 then cap.map fun _ => 0
  else
    let sh := cap.map fun c => total * c / sum
    let rest := total - sumOver sh id
    match (upTo cap.length).find? fun i => cap.getD i 0 != 0 with
    | some i => setAt sh i (sh.getD i 0 + rest)
    | none => sh

/-- GRANTED_W, BAT_SET_W and the strings' shares (R94). -/
def setBattery (g : Int) : Script :=
  .dyn fun s =>
    let pOut := sumOver ((upTo 24).filter fun k => eligible (s.os k))
      fun k => rne (s.planV k * s.o (R.outGrantI k)) 1000000
    let dis := (upTo 16).map fun i => s.o (R.bsDisCapW i)
    let chg := (upTo 16).map fun i => s.o (R.bsChgCapW i)
    let want : Int :=
      if g < pOut then min (pOut - g) (s.o R.batDisW)
      else if s.a R.batChargeEn = 1 then -(min (min (s.o R.batChgW) (g - pOut)) (s.o R.batChgW))
      else 0
    let sh := if 0 ≤ want then batSplit want dis else (batSplit (-want) chg).map fun x => -x
    all [ put R.grantedW pOut, put R.batSetW want,
          each (upTo 16) fun i => put (R.bsSetW i) (sh.getD i 0) ]

/-- SHELVER_RESULT_APPLY (R30, R91): the result of the frame just ended is discarded where PLACE or a PM group was
accepted with a change, and applied otherwise: moves within the limits, grants, battery set-point. -/
def applyResult : Script :=
  .dyn fun s =>
    match s.d.shRes, s.o R.shValid with
    | some r, 1 =>
      if s.o R.shDiscard = 1 then all [ put R.resultState 1, put R.resultFrame r.frame, put R.shValid 0 ]
      else
        let planned := fun k => (r.moves.filter fun mv => mv.k = k && mv.inc != 255).length
        all [ onlyIf (!r.frozen && !s.siteFrozen) (each r.moves (startMove r.frame planned)),
              each (upTo 24) (hoRamps s.d.handovers), refreshHo,
              each (upTo 24) (grantOut r), setBattery r.g,
              put R.plannedW (sumOver r.target id),
              put R.resultState (if r.frozen then 2 else 0), put R.resultFrame r.frame, put R.shValid 0 ]
    | _, _ => .skip

/-- M1: at the PFB after an output has gone to IDLE, ENDED or FAULT its modules are released. -/
def releasePfb : Script :=
  each (upTo 48) fun m =>
    .dyn fun s =>
      let k := s.holds m
      let st := s.os k
      onlyIf (k != 255 && (st = osIdle || st = osEnded || st = osFault) && !bit (s.o (R.modFlags m)) 0) (releaseModule m)

/-- Releases under way go on. -/
def releasesGoOn : Script := each (upTo 48) releaseStep

/-! ## Events that meet a handover within a frame (R99) -/

/-- R99 for one handover, from the legs as they stand. -/
def hoEvent (h : Handover) : Script :=
  .dyn fun s =>
    let lost := fun m => m != 255 && s.legCount m = 0
    if h.step ≤ 2 && lost h.inc then .seq (releaseModule h.inc) refreshHo
    else if h.step = 3 && lost h.inc then
      all [ each (s.connected h.k) fun m => put (R.modShare m) (s.o (R.modOldW m)),
            put (R.rampOn h.k) 0, releaseModule h.inc, refreshHo ]
    else if h.step = 3 && lost h.out && h.inc != 255 then
      all [ each (s.connected h.k ++ [h.inc]) fun m => put (R.modShare m) (s.o (R.modNewW m)),
            put (R.rampOn h.k) 0, setHo { h with met := true }, refreshHo ]
    else .skip

/-- R99 for all of them; CONTROL_SAMPLE runs it after protection. -/
def handoverEvents : Script := .dyn fun s => each s.d.handovers hoEvent

end Sys2Proof.Machine
end

