-- ==== Sys2Proof/Machine/Latches.lean ====
section
/-!
DEFINITION. Latched trips and locks of the SF island (spec/16_safety_island.md R333, R338, R341): what one names, and
the registers that show them.
-/

namespace Sys2Proof.Machine

/-- The union of bits of a list of masks. -/
def orAll (l : List Nat) : Nat := l.foldl (· ||| ·) 0

/-- SCO groups that a group stop demands, whether or not it names an output (R341). -/
def State.groupDemand (s : State) : Nat :=
  orAll ((upTo 16).map fun i =>
    let g := if i % 2 = 1 && s.a (R.siPair (i - 1)) = 1 then i - 1 else i
    if s.a (R.siFunc g) = 2 && (s.o (R.siDem i) = 1 || s.o (R.siFault i) != 0) then (s.a (R.siScoMask g)).toNat else 0)

/-- SCO_CUT (R340, R341): all groups at start-up, by role in a fault, else what the latches and demands name. -/
def State.scoCutOf (s : State) : Nat :=
  if s.o R.sfState = 0 then 255
  else if s.o R.sfState = 3 then (if s.drives then 255 else 0)
  else orAll (s.d.latches.map (·.mask)) ||| s.groupDemand

/-- Bring SF_STATE, TRIP_CAUSE, SCO_CUT, OUT_LOCK and OUT_TRIP_CAUSE up to date.
[DEDUCED, log 32] -/
def refreshLatches : Script :=
  .dyn fun s =>
    let l := s.d.latches
    let causes := fun (l : List Latch) => orAll (l.map fun x => if x.cause < 16 then 2 ^ x.cause else 0)
    all [ if s.o R.sfState = 1 || s.o R.sfState = 2 then put R.sfState (if l.any (·.out = 255) then 2 else 1) else .skip,
          put R.tripCause (causes l),
          each (upTo 24) fun k =>
            let lk := l.filter (·.out = k)
            .seq (put (R.outLock k) (orAll (lk.map fun x => 2 ^ x.lock))) (put (R.outTripCause k) (causes lk)),
          .dyn fun s => put R.scoCut s.scoCutOf ]

/-- A trip or a lock is latched (R333): one latch per output and cause; a demand that arises during a trip is latched
as well (R341), and a fresh one counts from now (R342). -/
def latch (out cause lock mask : Nat) (fresh : Bool) : Script :=
  .dyn fun s =>
    let same := fun (x : Latch) => x.out = out && x.cause = cause && x.lock = lock
    let again := fun (x : Latch) =>
      if same x then { x with mask := x.mask ||| mask, since := if fresh then s.now else x.since } else x
    if s.d.latches.any same then
      .seq (upd fun d => { d with latches := d.latches.map again }) refreshLatches
    else
      all [ upd fun d => { d with latches := d.latches ++ [⟨out, cause, lock, mask, s.now⟩] },
            bump R.sfTripCount, event R.sfEventQueue 0xC0 out cause, refreshLatches ]

/-- Whether the SF island is armed for output k (R333). -/
def State.armed (s : State) (k : Nat) : Bool := s.o R.sfState = 1 && s.o (R.outLock k) = 0

end Sys2Proof.Machine
end

