-- ==== Sys2Proof/Machine/Crc.lean ====
section
/-!
DEFINITION. The check codes of the interfaces: CRC-16 of the switchgear links (R120), CRC-32C (R142, R344) and CRC-8
of the mains-pulse link (R295).
-/

namespace Sys2Proof.Machine

/-- `n` shifts of a register of `w` bits, most significant bit first. -/
def crcShift (w poly : Nat) : Nat → Nat → Nat
  | 0, r => r
  | n + 1, r =>
    crcShift w poly n (if r.testBit (w - 1) then (2 * r) % 2 ^ w ^^^ poly else (2 * r) % 2 ^ w)

/-- CRC-16, polynomial 1021h, initial value FFFFh, no reflection, no final XOR (R120). -/
def crc16 (l : List Nat) : Nat := l.foldl (fun r b => crcShift 16 0x1021 8 (r ^^^ (b % 256 * 256))) 0xFFFF

/-- `n` shifts of a reflected register. -/
def crcShiftR (poly : Nat) : Nat → Nat → Nat
  | 0, r => r
  | n + 1, r => crcShiftR poly n (if r % 2 = 1 then r / 2 ^^^ poly else r / 2)

/-- CRC-32C (Castagnoli): reflected, initial value and final XOR of all ones. -/
def crc32c (l : List Nat) : Nat := l.foldl (fun r b => crcShiftR 0x82F63B78 8 (r ^^^ b % 256)) 0xFFFFFFFF ^^^ 0xFFFFFFFF

/-- CRC-8, polynomial 07h, initial value 0, no final XOR, over bits in sending order (R295). -/
def crc8 (l : List Bool) : Nat :=
  l.foldl (fun r b =>
    let top := r.testBit 7 != b
    if top then (2 * r) % 256 ^^^ 0x07 else (2 * r) % 256) 0

end Sys2Proof.Machine
end

