-- ==== Sys2Proof/Machine/Ledger.lean ====
section
/-!
DEFINITION. The ledger of the metrology island (spec/08_metrology.md R202–R207): meter status, the bodies of entries,
their flags and sequence numbers, and the slot an entry occupies.
-/

namespace Sys2Proof.Machine

/-- AO tick count now (R197): ticks of 32,768 Hz.
[DESIGN CHOICE, log 7] -/
def State.aoTicks (s : State) : Int := s.o R.aoBase + s.now * 32768 / 1000000000

/-- LEDGER_FREE, counted over the sequence numbers given (R207). -/
def State.ledgerLeft (s : State) : Int := 896 - (s.o R.ledgerSeq - s.o R.ledgerAck)

/-- STATUS of meter q: DC meters 0–23, grid points 24 and 25. -/
def stKey (q : Nat) : Key := if q < 24 then R.dcStatus q else R.gpStatus (q - 24)

/-- The reference of a meter (R182). -/
def vrefOf (q : Nat) : Nat := if q < 24 then q % 3 else q - 24

/-- RANGE_MISMATCH (R183). -/
def State.rangeMismatch (s : State) (q : Nat) : Bool :=
  q < 24 && decide (500000000000 < 12 * s.a (R.dcINom q) * s.a (R.shuntNohm q))

/-- STATUS as its conditions stand (R187, R189, R199, R202). -/
def State.meterStatus (s : State) (q : Nat) : Int :=
  let b := fun (i : Nat) (c : Bool) => if c then (2 ^ i : Int) else 0
  let drift := bit (s.o R.vrefDrift) (vrefOf q)
  let mm := s.rangeMismatch q
  let rec_ := decide (s.o R.mtState ≤ 1)
  let lc := decide (s.lc != 3)
  let key := decide (s.o R.keyState = 1)
  let nfb := drift || mm || rec_ || s.o R.mtState = 4 || lc || key || s.ledgerLeft ≤ 32 || s.o R.mtFull = 1
  b 0 (s.o R.mtNoMains = 1) + b 1 key + b 2 lc + b 3 rec_ + b 4 (s.o (R.mOver q) = 1) + b 5 mm + b 6 drift + b 7 nfb

/-- An entry's body, formed now (R203, R204), with the sequence number it takes; an entry for which the ring has no
room is not written (R207).
[DEDUCED, log 28] -/
def writeEntry (kind mtr flags va vb ref frame : Nat) : Script :=
  .dyn fun s =>
    if (kind = 1 || kind = 8) && s.ledgerLeft ≤ 32 then .skip
    else if s.ledgerLeft ≤ 0 then .seq (bump R.ledgerDropped) (put R.mtFull 1)
    else
      let st := if mtr < 26 then (s.o (stKey mtr)).toNat else 0
      let fl := (if st.testBit 7 then 128 else 0) ||| (if st.testBit 6 then 16 else 0)
        ||| (if s.o R.mtNoMains = 1 then 8 else 0) ||| (if s.o R.keyState = 1 then 2 else 0) ||| flags
      let e : Entry := {
        kind := kind, mtr := mtr, flags := fl, ref := ref, va := va, vb := vb
        seq := (s.o R.ledgerSeq + 1).toNat, lc := s.lc.toNat
        sess := if mtr < 24 then (s.o (R.sessionNo mtr)).toNat else 0
        frame := frame, time := s.site.toNat, ticks := s.aoTicks.toNat
        eImp := if mtr < 26 then (s.o (R.mImp mtr)).toNat else 0
        eExp := if mtr < 26 then (s.o (R.mExp mtr)).toNat else 0
        sid := if mtr < 24 then (s.o (R.mSessId mtr)).toNat else 0
        ctx := if mtr < 24 then (s.o (R.mSessCtx mtr)).toNat else 0
        fw := (s.o R.metrologyFw).toNat, fwAudit := (s.o R.fwAudit).toNat, paramAudit := (s.o R.paramAudit).toNat }
      all [ put R.ledgerSeq (s.o R.ledgerSeq + 1), upd fun d => { d with ledgerDue := d.ledgerDue ++ [e] } ]

/-- A meter's STATUS brought up to date; a change of STATUS[7:4] while the island meters writes a METER_STATE
entry (R203), and a session
open while the meter is not for billing is marked (R202).
[DEDUCED, log 28] -/
def refreshMeter (q : Nat) : Script :=
  .dyn fun s =>
    let old := s.o (stKey q)
    let new := s.meterStatus q
    all [ put (stKey q) new,
          if bit new 7 && q < 24 && s.o (R.dcSessState q) != 0 then
            .seq (put (R.mSessNb q) 1) (if s.o (R.dcSessState q) = 1 then put (R.dcSessState q) 3 else .skip)
          else .skip,
          if old / 16 != new / 16 && (s.o R.mtState = 2 || s.o R.mtState = 3) then writeEntry 7 q 0 new.toNat old.toNat 0 s.frame else .skip ]

/-- The meters of the part. -/
def State.meters (s : State) : List Nat := upTo s.nOut ++ [24, 25]

/-- Every meter's STATUS; twice, since an entry may itself change what the ledger has left (R202). -/
def refreshMeters : Script :=
  let pass : Script := .dyn fun s =>
    .seq (if 32 < s.ledgerLeft then put R.mtFull 0 else .skip) (each s.meters refreshMeter)
  .seq pass pass

/-- A session start (1) or stop (2), or a snapshot (8): it waits for the first MT sample that begins from now on
(R203). -/
def ledgerRequest (kind mtr : Nat) : Script :=
  .dyn fun s => upd fun d => { d with ledgerReq := d.ledgerReq ++ [(kind, mtr, s.frame)] }

/-- Bytes of a number, least significant first. -/
def leBytes : Nat → Nat → List Nat
  | 0, _ => []
  | n + 1, v => v % 256 :: leBytes n (v / 256)

/-- A number from bytes, least significant first. -/
def ofLe : List Nat → Nat
  | [] => 0
  | b :: t => b % 256 + 256 * ofLe t

/-- The slot of an entry (R204): its 256 bytes. -/
def slotBytes (serial keyId : Nat) (e : Entry) (signature : List Nat) : List Nat :=
  let head := leBytes 2 0x4C45 ++ leBytes 2 244 ++ leBytes 4 e.seq
  let body := [e.kind, e.flags, e.mtr, e.lc] ++ leBytes 16 serial ++ leBytes 4 e.sess ++ leBytes 4 e.frame
    ++ leBytes 8 e.time ++ leBytes 8 e.ticks ++ leBytes 8 e.eImp ++ leBytes 8 e.eExp ++ leBytes 8 e.va ++ leBytes 8 e.vb
    ++ leBytes 4 e.ref ++ leBytes 4 e.fw ++ leBytes 4 e.fwAudit ++ leBytes 4 e.paramAudit ++ leBytes 8 e.sid
    ++ leBytes 32 e.ctx ++ leBytes 8 keyId ++ leBytes 8 0 ++ signature
  head ++ leBytes 4 (crc32c (head ++ body)) ++ body

/-- LEDGER_NEWEST, LEDGER_OLDEST and LEDGER_FREE after a change of the ring. -/
def refreshLedger : Script :=
  .dyn fun s => all [
    put R.ledgerNewest ((s.d.ledger.map (·.1)).foldl max (s.o R.ledgerNewest).toNat),
    put R.ledgerOldest (match s.d.ledger with | [] => 0 | x :: _ => x.1),
    .dyn fun s => put R.ledgerFree (896 - (s.o R.ledgerNewest - s.o R.ledgerAck)) ]

end Sys2Proof.Machine
end

