-- ==== Sys2Proof/Machine/Outputs.lean ====
section
/-!
DEFINITION. Output sessions (spec/05_output_sessions_switchgear.md R104–R114): the state machine, its causes and
their precedence, the isolation test, precharge, ramp-down and weld check, and the contactors.
-/

namespace Sys2Proof.Machine

/-! ## Contactors (R114) -/

/-- The MT meter of output k has read below 2 A for 10 ms. -/
def State.quiet10 (s : State) (k : Nat) : Bool :=
  0 ≤ s.o (R.outLowNs k) && decide (10000 ≤ s.usSince (s.o (R.outLowNs k)))

/-- Command the wanted contactors of output k: BLEED at any current, DC+ and DC− only while the meter has read
below 2 A for 10 ms (R114). `sf` is a command of the SF island, which R114 exempts. -/
def contactors (k : Nat) (sf : Bool := false) : Script :=
  .dyn fun s =>
    let w := s.o (R.outWant k)
    let x := outExp k
    let dc := sf || s.quiet10 k
    let moves := dc && (s.coilOn x (outCoil k 0) != bit w 0 || s.coilOn x (outCoil k 1) != bit w 1)
    all [ coil x (outCoil k 2) (bit w 2) sf,
          if dc then .seq (coil x (outCoil k 0) (bit w 0) sf) (coil x (outCoil k 1) (bit w 1) sf) else .skip,
          if moves then put (R.outCmdNs k) s.now else .skip ]

/-- Both main contactors read closed. -/
def State.mainsClosed (s : State) (k : Nat) : Bool :=
  s.auxClosed (outExp k) (outCoil k 0) && s.auxClosed (outExp k) (outCoil k 1)

/-! ## Entry to the states (R105) -/

/-- The generators stop and are cleared (R150). -/
def clearGenerators (k : Nat) : Script :=
  all [ put (R.pvP k) 0, put (R.pvV k) 0, put (R.pvA k) 0, put (R.piP k) 0, put (R.piV k) 0, put (R.piA k) 0,
        put (R.pvValue k) 0, put (R.piValue k) 0 ]

/-- The light-load registers as in NORMAL (M4); where the output goes on, its shed legs get close requests and the
weights of R93 apply. -/
def llNormal (k : Nat) (goesOn : Bool) : Script :=
  .dyn fun s =>
    let was := s.o (R.llMode k) != 0
    all [ put (R.llMode k) 0, put (R.shedLevel k) 0, put (R.llNs k) (-1), put (R.llBurstNs k) (-1),
          put (R.llCount k) (-1), put (R.llRamp k) 0, put (R.llClamped k) 0, put (R.llAbort k) 0,
          each ((upTo 192).filter fun n => s.connTo (n / 4) = some k) fun n =>
            .seq (put (R.llRole n) 0)
              (if s.o (R.chShed n) = 1 then .seq (put (R.chShed n) 0) (if goesOn then closeLeg n else .skip) else .skip),
          if was && goesOn then .seq (put (R.rampOn k) 0) (formWeights k) else .skip ]

/-- The ramp rate of a cause (R106), mA/ms. -/
def State.rampRate (s : State) (k : Nat) (cause : Int) : Int :=
  if cause = 10 || cause = 11 then 1000000 else if cause = 9 then 0 else s.a (R.rampdownRate k)

/-- What each state does on entry (R105, R108–R112). -/
def onEntry (k : Nat) (st : Int) : Script :=
  .dyn fun s =>
    if st = osIdle then
      all [ put (R.outWant k) 0, contactors k, clearGenerators k, llNormal k false, put (R.outReqI k) 0, put (R.outReqV k) 0,
            put (R.outMinI k) 0, put (R.outGone k) 0, put (R.isoResult k) 0 ]
    else if st = osConnected then
      all [ put (R.sessionNo k) (s.o (R.sessionNo k) + 1), put (R.outReqI k) 0, put (R.outMinI k) 0,
            put (R.outEndCause k) 0, put (R.outGone k) 0, put (R.outVehOpen k) 0, put (R.outLinkLost k) 0,
            put (R.linkFault k) 0, put (R.slacDone k) 0 ]
    else if st = osIso then
      let v := min (s.a (R.outMaxV k)) (s.o (R.evMaxV k))
      all [ put (R.outWant k) 3, contactors k, put (R.outCmdNs k) s.now, put (R.outIsoV k) v, put (R.outReqV k) v,
            put (R.outReqI k) (s.a (R.prechgILim k)), put (R.outMinI k) 0, put (R.outHoldNs k) (-1),
            put (R.outIsoMin k) (-1), put (R.isoResult k) (if s.a (R.imdMode k) = 0 then 4 else 0),
            put (R.piP k) 0, put (R.piV k) 0, put (R.piA k) 0, ledgerRequest 1 k ]
    else if st = osPre then
      all [ put (R.outReady k) 0, put (R.outHoldNs k) (-1), put (R.outReqI k) (s.a (R.prechgILim k)) ]
    else if st = osEnergy then put (R.outPauseNs k) (-1)
    else if st = osRamp then
      all [ put (R.outLim k) (s.o (R.piP k) / 1000000), put (R.outZeroNs k) (-1),
            put (R.outRate k) (s.rampRate k (s.o (R.outEndCause k))), llNormal k true,
            put (R.piV k) 0, put (R.piA k) 0 ]
    else if st = osWeld then
      let able := (s.connected k).any fun m => (legs m).any fun n => s.avail n
      all [ put (R.outPhase k) 1, put (R.outPhaseNs k) s.now, put (R.outPhaseDone k) 0, put (R.outQuietNs k) (-1),
            put (R.outWant k) 5, contactors k, put (R.outReqV k) (s.a (R.weldV k)), put (R.outLim k) 2000,
            put (R.contactors k) (withBit (s.o (R.contactors k)) 3 (!able)) ]
    else if st = osEnded then
      all [ put (R.outWant k) 0, contactors k, clearGenerators k, llNormal k false, put (R.outReqI k) 0,
            put (R.outPhase k) 0, ledgerRequest 2 k ]
    else
      all [ each (upTo 48) fun m => onlyIf (s.holds m = k || s.connTo m = some k) (openModule m),
            clearGenerators k, llNormal k false, put (R.outReqI k) 0, put (R.outPhase k) 0, ledgerRequest 2 k ]

/-- Enter a state, now: OUT_STATE, STATE_FRAME, the event word of the output (EVENT 30h, new state, cause), and the
state's entry actions. -/
def enterState (k : Nat) (st cause : Int) : Script :=
  .dyn fun s =>
    all [ if cause = 0 then .skip else put (R.outEndCause k) cause,
          onEntry k st,
          put (R.outState k) st, put (R.stateFrame k) s.frame, put (R.outNs k) s.now,
          put (R.outPend k) 0, put (R.outPendCause k) 0,
          event (R.outEventQueue k) 0x30 k (st.toNat * 256 + cause.toNat) ]

/-- A transition that waits for the PFB (R104); of several causes, the lowest code wins (R106).
[DEDUCED, log 23] -/
def pendState (k : Nat) (st cause : Int) : Script :=
  .dyn fun s =>
    onlyIf (s.o (R.outPend k) = 0 || (0 < cause && cause < s.o (R.outPendCause k)))
      (all [ put (R.outPend k) (st + 1), put (R.outPendCause k) cause ])

/-- Where a cause leads from a session state (R106). -/
def causeTo (cause : Int) : Int :=
  if cause = 17 then osEnded
  else if (1 ≤ cause && cause ≤ 6) || cause = 8 then osFault else osRamp

/-- A cause takes effect on output k (R104, R106): in the sample for causes 1 to 11, at the PFB for the others.
[DEDUCED, log 23] -/
def endBy (k : Nat) (cause : Int) : Script :=
  .dyn fun s =>
    let st := s.os k
    let rec0 := s.o (R.outEndCause k)
    let now := decide (cause ≤ 11)
    if st = osRamp then
      if cause < rec0 then
        if causeTo cause = osFault then enterState k osFault cause
        else .seq (put (R.outEndCause k) cause) (put (R.outRate k) (max (s.o (R.outRate k)) (s.rampRate k cause)))
      else .skip
    else if st = osWeld then
      if cause ≤ 7 then enterState k osFault cause else .skip
    else if eligible st then
      if now then enterState k (causeTo cause) cause else pendState k (causeTo cause) cause
    else if st = osFault then
      onlyIf (s.o (R.outNs k) = s.now && 0 < cause && cause < rec0) (put (R.outEndCause k) cause)
    else if causeTo cause = osFault then enterState k osFault cause
    else .skip

/-! ## Leaving IDLE (R75, R107, R142, M7, R70) -/

/-- STATUS of a group's COMMIT_RESULT. -/
def State.status (s : State) (g : Nat) : Int := s.o (R.gResult g) / 4611686018427387904

/-- The conditions under which an output may leave IDLE, but for the life-cycle state. -/
def State.mayLeaveIdle (s : State) (k : Nat) : Bool :=
  decide (k < s.nOut) && s.a (R.outletType k) != 0 && s.status (240 + k) = 1 && s.status 264 = 1 && s.status 266 = 1
    && ((upTo 48).all fun m => !(s.reach m).contains k || s.status (192 + m) = 1)
    && s.o R.startPhase = 9 && s.armed k
    && s.expEnabled (outExp k) && !s.expLost (outExp k)
    && s.o (R.vcoefStatus k) = 1 && s.island iVL != 0 && s.island iCA != 0
    && !bit (s.o R.injMask) k && !(s.o R.pairOn = 1 && s.role = roleSolo && s.o R.selFb != 1)

/-- A vehicle is present on an IDLE output (R105): CONNECTED at the PFB; in BLANK or RETIRED the output stays IDLE
and the refusal is recorded under M7. -/
def vehicleArrives (k : Nat) : Script :=
  .dyn fun s =>
    if s.os k != osIdle then .skip
    else if s.lc = 0 || s.lc = 5 then refuse 7 (0x3600 + k) .firmware
    else onlyIf (s.mayLeaveIdle k) (pendState k osConnected 0)

/-! ## Effects of readings and inputs -/

/-- Insulation of output k in kΩ as the hold of R108 takes it: none while its monitor is not ready; a fault of the
monitor reads as 0 (R337). -/
def State.isoReading (s : State) (k : Nat) : Option Int :=
  let st := s.o (R.imdState k)
  if s.a (R.imdMode k) = 0 || st = 0 || st = 2 then none else some (if 3 ≤ st then 0 else s.o (R.imdR k))

/-- R108's hold: kept while the voltage stands in its band, contactors are confirmed, a module is connected and the
monitor is ready; too low a resistance ends the session with ISO_FAIL. -/
def isoHold (k : Nat) : Script :=
  .dyn fun s =>
    if s.os k != osIso then .skip
    else
      let v := s.o (R.outIsoV k)
      let inBand := decide ((s.o (R.dcVInst k) - v).natAbs ≤ (s.a (R.prechgTol k)).toNat) && s.mainsClosed k
        && !(s.connected k).isEmpty
      match s.isoReading k with
      | none => all [ put (R.outHoldNs k) (-1), put (R.outIsoMin k) (-1),
                      if s.o (R.isoResult k) = 0 || s.o (R.isoResult k) = 4 then put (R.isoResult k) 4 else .skip ]
      | some r =>
        if !inBand then all [ put (R.outHoldNs k) (-1), put (R.outIsoMin k) (-1) ]
        else if r * 10000 < v then all [ put (R.isoResult k) 3, endBy k 2 ]
        else all [ if s.o (R.outHoldNs k) < 0 then put (R.outHoldNs k) s.now else .skip,
                   put (R.outIsoMin k) (if s.o (R.outIsoMin k) < 0 then r else min r (s.o (R.outIsoMin k))),
                   if s.o (R.isoResult k) = 4 then put (R.isoResult k) 0 else .skip ]

/-- The contact that the weld-check phase of output k opens. -/
def State.weldCoil (s : State) (k : Nat) : Nat := outCoil k (if s.o (R.outPhase k) = 3 then 0 else 1)

/-- The time that a weld-check phase counts (R112): from the moment at which the contact has read open twice and the MT
voltage is below 30 V, for as long as neither changes.
[DEDUCED, log 19] -/
def weldQuiet (k : Nat) : Script :=
  .dyn fun s =>
    put (R.outQuietNs k)
      (if s.os k = osWeld && s.o (R.dcVInst k) < 30000 && !s.auxClosed (outExp k) (s.weldCoil k) then
         (if 0 ≤ s.o (R.outQuietNs k) then s.o (R.outQuietNs k)
          else if s.auxOpen2 (outExp k) (s.weldCoil k) then s.now else -1)
       else -1)

/-- A reading of a DC meter takes effect (R192): I_INST, V_INST, and the times that the session rules count. -/
def applyInst (k : Nat) (i v : Int) : Script :=
  .dyn fun s =>
    all [ put (R.dcIInst k) i, put (R.dcVInst k) v,
          put (R.outLowNs k) (if below2A i then (if 0 ≤ s.o (R.outLowNs k) then s.o (R.outLowNs k) else s.now) else -1),
          put (R.outHighNs k) (if below2A i then -1 else if 0 ≤ s.o (R.outHighNs k) then s.o (R.outHighNs k) else s.now),
          weldQuiet k, isoHold k,
          .dyn fun s =>
            onlyIf (s.os k = osPre)
              (put (R.outHoldNs k)
                (if (v - s.o (R.outReqV k)).natAbs ≤ (s.a (R.prechgTol k)).toNat then
                   (if 0 ≤ s.o (R.outHoldNs k) then s.o (R.outHoldNs k) else s.now) else -1)) ]

/-- What a write to OUT_STOP does (R106): OPERATOR_STOP. -/
def applyOutStop (k : Nat) : Script := endBy k 15

/-- What a write to FAULT_CLEAR does when it takes effect (R105): judged once, then consumed. -/
def applyFaultClear (k : Nat) : Script :=
  .dyn fun s =>
    onlyIf (s.os k = osFault && s.o (R.vehHere k) != 1
        && s.o (R.contactors k) % 8 = 0 && (s.o (R.outEndCause k) != 1 || s.o R.sfState = 1))
      (pendState k osIdle 0)

/-- An unplug takes effect (R105, R113). -/
def applyUnplugOut (k : Nat) : Script :=
  .dyn fun s =>
    let st := s.os k
    if eligible st then .seq (put (R.outLinkLost k) 1) (endBy k 10)
    else if st = osConnected || st = osEnded then pendState k osIdle 0
    else if st = osRamp || st = osWeld then
      .seq (put (R.outGone k) 1) (.seq (put (R.outLinkLost k) 1) (if st = osRamp then endBy k 10 else .skip))
    else .skip

/-! ## The commands -/

/-- CONTACTOR_CLOSE_TIMEOUT (R108): 30 ms after the command not both contactors read closed. -/
def execContactorCloseTimeout (k : Out) (s : State) : Host.Outcome State Fault Refusal :=
  doesIf (fun s => s.os k = osIso && !s.mainsClosed k && decide (30000 ≤ s.usSince (s.o (R.outCmdNs k)))) (endBy k 5) s

/-- ISO_DWELL_EXPIRY (R108): the hold has lasted ISO_DWELL_US; ISO_RESULT reads pass, or pass with warning where the
lowest reading lies below ISO_WARN × ISO_TEST_V. -/
def execIsoDwellExpiry (k : Out) (s : State) : Host.Outcome State Fault Refusal :=
  doesIf (fun s => s.os k = osIso && 0 ≤ s.o (R.outHoldNs k)
      && decide (s.a (R.isoDwellUs k) ≤ s.usSince (s.o (R.outHoldNs k))))
    (.dyn fun s => put (R.isoResult k)
      (if s.o (R.outIsoMin k) * 1000000 < s.a (R.isoWarn k) * s.o (R.outIsoV k) then 2 else 1)) s

/-- ISO_TIMEOUT (R105): 40 s from entry to ISOLATION_TEST. -/
def execIsoTimeout (k : Out) (s : State) : Host.Outcome State Fault Refusal :=
  doesIf (fun s => s.os k = osIso && decide (40000000 ≤ s.usSince (s.o (R.outNs k)))) (endBy k 13) s

/-- PRECHARGE_READY (R109): within PRECHG_TOL of the target for 100 ms. -/
def execPrechargeReady (k : Out) (s : State) : Host.Outcome State Fault Refusal :=
  doesIf (fun s => s.os k = osPre && 0 ≤ s.o (R.outHoldNs k)
      && decide (100000 ≤ s.usSince (s.o (R.outHoldNs k)))) (put (R.outReady k) 1) s

/-- PRECHARGE_TIMEOUT (R105): 7 s from entry to PRECHARGE. -/
def execPrechargeTimeout (k : Out) (s : State) : Host.Outcome State Fault Refusal :=
  doesIf (fun s => s.os k = osPre && decide (7000000 ≤ s.usSince (s.o (R.outNs k)))) (endBy k 12) s

/-- PAUSE_TIMEOUT (R110): a grant of 0 for PAUSE_LIMIT_US. -/
def execPauseTimeout (k : Out) (s : State) : Host.Outcome State Fault Refusal :=
  doesIf (fun s => s.os k = osEnergy && s.a (R.pauseLimitUs k) != 0 && 0 ≤ s.o (R.outPauseNs k)
      && decide (s.a (R.pauseLimitUs k) ≤ s.usSince (s.o (R.outPauseNs k)))) (endBy k 14) s

/-- RAMP_DOWN_END (R111): to FAULT after SGL_LOST, else to WELD_CHECK at the PFB; after CA_RESET the ramp is the SF
island's (R106). -/
def execRampDownEnd (k : Out) (s : State) : Host.Outcome State Fault Refusal :=
  doesIf (fun s => s.os k = osRamp && s.o (R.outEndCause k) != 9 && s.quiet10 k
      && (s.o (R.outVehOpen k) = 1 || s.o (R.outLinkLost k) = 1 || decide (2000000 ≤ s.usSince (s.o (R.outLowNs k)))))
    (.dyn fun s =>
      if s.o (R.outEndCause k) = 7 then enterState k osFault 7
      else pendState k osWeld (s.o (R.outEndCause k))) s

/-- RAMP_STUCK (R111): 1 s after the limit reached 0 the reading is not below 2 A. -/
def execRampStuck (k : Out) (s : State) : Host.Outcome State Fault Refusal :=
  doesIf (fun s => s.os k = osRamp && 0 ≤ s.o (R.outZeroNs k) && s.o (R.outLowNs k) < 0
      && decide (1000000 ≤ s.usSince (s.o (R.outZeroNs k)))) (endBy k 6) s

/-- What a weld-check phase waits for (R112): the aux contact in two valid responses and, unless the check is
passive, the MT voltage below 30 V for 20 ms.
[DEDUCED, log 19, DEDUCED, log 20] -/
def State.weldOk (s : State) (k : Nat) : Bool :=
  let ph := s.o (R.outPhase k)
  if ph = 2 then s.auxClosed2 (outExp k) (outCoil k 1)
  else if ph = 1 || ph = 3 || ph = 4 then
    if bit (s.o (R.contactors k)) 3 then s.auxOpen2 (outExp k) (s.weldCoil k)
    else 0 ≤ s.o (R.outQuietNs k) && decide (20000 ≤ s.usSince (s.o (R.outQuietNs k)))
  else false

/-- WELD_PHASE_PASS (R112): the phase's conditions are met; the next begins at the PFB. -/
def execWeldPhasePass (k : Out) (s : State) : Host.Outcome State Fault Refusal :=
  doesIf (fun s => s.os k = osWeld && s.o (R.outPhaseDone k) != 1 && s.weldOk k) (put (R.outPhaseDone k) 1) s

/-- WELD_PHASE_TIMEOUT (R112, R338): not passed within 500 ms; cause WELD, and the SF island locks the output
(OUT_LOCK[2] WELD).
[DEDUCED, log 20] -/
def execWeldPhaseTimeout (k : Out) (s : State) : Host.Outcome State Fault Refusal :=
  doesIf (fun s => s.os k = osWeld && s.o (R.outPhaseDone k) != 1
      && decide (500000 ≤ s.usSince (s.o (R.outPhaseNs k))))
    (.seq (latch k 2 2 0 true) (endBy k 3)) s

/-- FAULT_CONTACTOR_OPEN (R105): in FAULT, below 2 A for 10 ms, the contactors are commanded open. -/
def execFaultContactorOpen (k : Out) (s : State) : Host.Outcome State Fault Refusal :=
  doesIf (fun s => s.os k = osFault && s.quiet10 k) (.seq (put (R.outWant k) 0) (contactors k)) s

/-! ## At the PFB -/

/-- The next phase of a weld check whose phase passed (R112). -/
def weldPfb (k : Nat) : Script :=
  .dyn fun s =>
    let ph := s.o (R.outPhase k)
    if s.os k != osWeld || s.o (R.outPhaseDone k) != 1 then .skip
    else if ph = 4 then
      all [ put (R.outPhaseDone k) 0, put (R.outWant k) 0, contactors k, enterState k osEnded 0 ]
    else
      all [ put (R.outPhaseDone k) 0, put (R.outPhase k) (ph + 1),
            if ph = 2 then .skip else put (R.outPhaseNs k) s.now,
            put (R.outQuietNs k) (-1),
            put (R.outWant k) (if ph = 1 then 7 else if ph = 2 then 6 else 4), contactors k,
            if ph = 3 then each (s.connected k) openModule else .skip ]

/-- Output k at a PFB (R104): its pending transition, its weld phase, the contactors, and ENDED without a vehicle
passing to IDLE at once (R113). An output that an injection names stays IDLE or ENDED (R389). -/
def outputPfb (k : Nat) : Script :=
  all [ .dyn fun s => onlyIf (s.o (R.outPend k) != 0 && !(bit (s.o R.injMask) k && (s.os k = osIdle || s.os k = osEnded)))
          (enterState k (s.o (R.outPend k) - 1) (s.o (R.outPendCause k))),
        weldPfb k,
        .dyn fun s => onlyIf (s.os k = osEnded && s.o (R.outGone k) = 1 && !bit (s.o R.injMask) k) (enterState k osIdle 0),
        -- contactors found closed at start-up are R79's until it has dealt with them
        .dyn fun s => onlyIf (s.os k != osFault && s.o (R.outFound k) = 0) (contactors k) ]

/-- The time with a grant of 0 in ENERGY_TRANSFER (R110). -/
def pauseTrack (k : Nat) : Script :=
  .dyn fun s =>
    put (R.outPauseNs k)
      (if s.os k = osEnergy && s.o (R.outGrantI k) = 0 then
         (if 0 ≤ s.o (R.outPauseNs k) then s.o (R.outPauseNs k) else s.now) else -1)

end Sys2Proof.Machine
end

