-- ==== Sys2Proof/Machine/Protection.lean ====
section
/-!
DEFINITION. Converter protection (spec/07_phase_scheduling_protection.md R165–R175): hiccup and latching, module
trips and their release, and the fault cards; and the over-current comparator's events (R130, R131).
-/

namespace Sys2Proof.Machine

/-- Fields packed into one little-endian number: pairs of byte count and value. -/
def packLE : List (Nat × Int) → Nat
  | [] => 0
  | (n, v) :: t => (v % (256 ^ n : Nat)).toNat + 256 ^ n * packLE t

/-- Capture a fault card (R173, R174); slot CARD_NO mod 8 takes it, and the module's folio is due (R175).
[DEDUCED, log 27] -/
def card (m : Nat) (cause ch retry cbc after : Int) : Script :=
  .dyn fun s =>
    let no := s.o (R.lastCardNo m) + 1
    let k := s.holds m
    let v := packLE [(8, s.site), (4, s.frame), (4, no), (2, s.sample), (1, cause), (1, ch), (1, retry), (1, cbc),
      (1, after), (1, k), (1, if k < 24 then s.o (R.llMode k) * 64 + s.o (R.shedLevel k) else 0), (1, 0),
      (2, s.o (R.hsTemp m)), (2, s.o R.dieMax), (2, 0),
      (4, s.o (R.chI (4 * m))), (4, s.o (R.chI (4 * m + 1))), (4, s.o (R.chI (4 * m + 2))), (4, s.o (R.chI (4 * m + 3))),
      (4, if ch = 255 then 0 else s.o (R.chDuty ch.toNat)), (4, s.o (R.vLink m)), (4, s.o (R.vin m)),
      (4, if k < 24 then s.o (R.vOut k) else 0)]
    all [ put (R.cardSlot m (no.toNat % 8)) v, put (R.newest m) (no % 8), put (R.lastCardNo m) no,
          put (R.modTripCount m) (s.o (R.modTripCount m) + 1), put (R.cardDirty m) 1,
          if ch = 255 then .skip else put (R.protCause ch.toNat) cause ]

/-- Whether the gates of a channel run on manual duty (R136): OPEN with OPEN_MODE 1, its module AVAILABLE or OFFLINE
and no battery port. -/
def State.manual (s : State) (n : Nat) : Bool :=
  s.cs n = csOpen && s.a (R.openMode n) = 1 && s.a (R.batPort (n / 4)) != 1
    && (s.o (R.modState (n / 4)) = msAvailable || s.o (R.modState (n / 4)) = msOffline)

/-- Whether the modulator of a channel runs: CLOSED, unless a handover holds the module's gates off, or manual duty. -/
def State.modulates (s : State) (n : Nat) : Bool :=
  (s.cs n = csClosed && s.o (R.modOff (n / 4)) != 1) || s.manual n

/-! ## The comparator (R130, R131) -/

/-- The limit hi of R130. -/
def State.ocHi (s : State) (n : Nat) : Int :=
  cdiv (s.a (R.ocWin n) * (s.a (R.iFs n) + s.a (R.ocThresh n))) (2 * s.a (R.iFs n))

/-- The condition of a window of OC_WIN bits: 1 positive, 2 negative, 0 none. An injection at the module's point makes
the bitstream all ones (R388). -/
def State.ocCondOf (s : State) (n window : Nat) : Nat :=
  let w := (s.a (R.ocWin n)).toNat
  let c : Int := if s.injectsArg (n / 4) (n % 4) then (w : Int) else ((upTo w).filter window.testBit).length
  if s.ocHi n ≤ c then 1 else if c ≤ w - s.ocHi n then 2 else 0

/-- OC_EVENT (R130, R131): `window` holds the last OC_WIN + 1 latched bits, the newest in bit 0. Where the modulator
runs, an event is the first of its sign in a carrier period and holds the gate low for the rest of it; elsewhere it
is a condition that did not hold at the clock before. OC_EVENTS counts every event.
[DEDUCED, log 27] -/
def execOcEvent (n : Ch) (window : Nat) (s : State) : Host.Outcome State Fault Refusal :=
  doesIf (fun s =>
      let c := s.ocCondOf n window
      s.o R.caRun = 1 && c != 0 &&
        (if s.modulates n then (c = 1 && s.o (R.ocPos n) != 1) || (c = 2 && s.o (R.ocNeg n) != 1)
         else s.ocCondOf n (window / 2) != c))
    (.dyn fun s =>
      let c := s.ocCondOf n window
      .seq (put (R.ocEvents n) (s.o (R.ocEvents n) + 1))
        (if s.modulates n then
          all [ put (R.chLimited n) 1,
                if c = 1 then .seq (put (R.ocPos n) 1) (put (R.chForced n) (withBit (s.o (R.chForced n)) 0 true))
                else .seq (put (R.ocNeg n) 1) (put (R.chForced n) (withBit (s.o (R.chForced n)) 1 true)) ]
         else .skip)) s

/-- The end of a carrier period (R165): CBC_CNT rises after a limited period and falls after a clean one; the
forced gates are free again. -/
def periodEnd (n : Nat) : Script :=
  .dyn fun s =>
    let c := s.o (R.cbcCnt n)
    let lim := s.o (R.chLimited n) = 1
    onlyIf (s.modulates n)
      (all [ put (R.cbcCnt n) (if lim then c + 1 else max 0 (c - 1)),
             if lim then put (R.cleanNs n) 0 else .skip,
             put (R.chLimited n) 0, put (R.ocPos n) 0, put (R.ocNeg n) 0, put (R.chForced n) 0 ])

/-! ## Hiccup and latch (R165–R167, R170, R171) -/

/-- HICCUP_ENTRY (R165): CBC_CNT has reached CBC_N; the leg enters HICCUP, or LATCHED once RETRY_COUNT equals
RETRY_MAX, with a card.
[DEDUCED, log 27] -/
def execHiccupEntry (n : Ch) (s : State) : Host.Outcome State Fault Refusal :=
  doesIf (fun s => s.modulates n && decide (s.a (R.cbcN (n / 4)) ≤ s.o (R.cbcCnt n)))
    (.dyn fun s =>
      let m := n.val / 4
      let retry := s.o (R.retryCount n)
      let latch := decide (s.a (R.retryMax m) ≤ retry)
      all [ card m (if latch then 2 else 1) n.val retry (s.o (R.cbcCnt n)) (if latch then csLatched else csHiccup),
            setCh n (if latch then csLatched else csHiccup),
            put (R.cbcCnt n) 0, put (R.hicNs n) s.now, put (R.hiccupLeftUs n) (if latch then 0 else s.a (R.hiccupOffUs m)),
            if latch then put (R.latchMask m) (withBit (s.o (R.latchMask m)) (n.val % 4) true) else .skip,
            capabilityFell m ]) s

/-- Whether the present shed level keeps a leg, and whether its module is served (R166). -/
def State.legServes (s : State) (n : Nat) : Bool :=
  s.o (R.chShed n) != 1 && (s.holds (n / 4) != 255)

/-- Whether the off timer of a leg in HICCUP has run out. -/
def State.hiccupOver (s : State) (n : Nat) : Bool :=
  s.cs n = csHiccup && decide (s.a (R.hiccupOffUs (n / 4)) ≤ s.usSince (s.o (R.hicNs n)))

/-- A retry (R166). -/
def retryLeg (n : Nat) : Script :=
  .dyn fun s =>
    if s.legServes n then
      all [ put (R.retryCount n) (s.o (R.retryCount n) + 1), setCh n csOpen, closeLeg n, refreshMod (n / 4) ]
    else .seq (setCh n csOpen) (refreshMod (n / 4))

/-- HICCUP_RETRY (R166): the off timer has run out and no trip cause holds for the module. -/
def execHiccupRetry (n : Ch) (s : State) : Host.Outcome State Fault Refusal :=
  doesIf (fun s => s.hiccupOver n && s.o (R.tripCauses (n / 4)) = 0) (retryLeg n) s

/-- CLEAN_RUN_RESET (R167): CLEAN_RUN_US in CLOSED with no limited period. -/
def execCleanRunReset (n : Ch) (s : State) : Host.Outcome State Fault Refusal :=
  doesIf (fun s => s.cs n = csClosed && decide (s.a (R.cleanRunUs (n / 4)) * 1000 ≤ s.o (R.cleanNs n)))
    (.seq (put (R.retryCount n) 0) (put (R.cleanNs n) 0)) s

/-- What a write to LATCH_CLEAR does when it takes effect (R170). -/
def applyLatchClear (m : Nat) : Script :=
  .dyn fun s =>
    onlyIf (s.o (R.tripCauses m) = 0)
      (all [ each ((legs m).filter fun n => s.cs n = csLatched) fun n =>
               all [ setCh n csOpen, put (R.retryCount n) 0, put (R.cbcCnt n) 0 ],
             put (R.latchMask m) 0,
             card m 7 255 0 0 255, refreshMod m ])

/-! ## Module trips (R168, R169) -/

/-- The bits of TRIP_CAUSES: THERMAL, HS_SENSOR_FAULT, LINK_OV, SCO. -/
def tThermal : Nat := 0
def tSensor : Nat := 1
def tLinkOv : Nat := 2
def tSco : Nat := 3

/-- A trip cause sets (R168): legs in OPEN or CLOSED enter TRIPPED, one card is captured (R173). -/
def tripCause (m b : Nat) : Script :=
  .dyn fun s =>
    onlyIf (!bit (s.o (R.tripCauses m)) b)
      (all [ put (R.tripCauses m) (withBit (s.o (R.tripCauses m)) b true),
             if b ≤ 1 then put (R.tlatch m) 1 else .skip,
             card m (3 + b) 255 0 0 255,
             each ((legs m).filter s.avail) fun n => setCh n csTripped,
             capabilityFell m ])

/-- A trip cause releases (R169): with the last one gone, HICCUP legs whose timer has run out retry, and TRIPPED
legs go OPEN and, where they serve, close without using a retry. -/
def releaseCauses (m : Nat) (bits : List Nat) : Script :=
  .dyn fun s =>
    let left := bits.foldl (fun v b => withBit v b false) (s.o (R.tripCauses m))
    all [ put (R.tripCauses m) left,
          if bit left tThermal || bit left tSensor then .skip else put (R.tlatch m) 0,
          if left != 0 then .skip
          else .seq (each (legs m) fun n =>
                 .dyn fun s =>
                   if s.hiccupOver n then retryLeg n
                   else if s.cs n = csTripped then
                     .seq (setCh n csOpen) (if s.legServes n then closeLeg n else .skip)
                   else .skip) (refreshMod m) ]

/-- THERMAL_RELEASE (R168): every reading at or below TLATCH_REL for TLATCH_DWELL_US, the sensor valid. -/
def execThermalRelease (m : Pm) (s : State) : Host.Outcome State Fault Refusal :=
  doesIf (fun s => s.o (R.tlatch m) = 1 && 0 ≤ s.o (R.tlNs m)
      && decide (s.a (R.tlatchDwellUs m) ≤ s.usSince (s.o (R.tlNs m))))
    (releaseCauses m [tThermal, tSensor]) s

/-- LINK_OV_TRIP (R168): V_LINK above LINK_OV in 2 consecutive samples. -/
def execLinkOvTrip (m : Pm) (s : State) : Host.Outcome State Fault Refusal :=
  doesIf (fun s => 2 ≤ s.o (R.ovCnt m)) (tripCause m tLinkOv) s

/-- LINK_OV_RELEASE (R168): below 95 % of LINK_OV for 5,000 samples. -/
def execLinkOvRelease (m : Pm) (s : State) : Host.Outcome State Fault Refusal :=
  doesIf (fun s => bit (s.o (R.tripCauses m)) tLinkOv && 5000 ≤ s.o (R.ovLow m)) (releaseCauses m [tLinkOv]) s

/-- A heatsink reading of module m takes effect (R168): HS_TEMP, the time since which readings stay at or below
TLATCH_REL, and the trips THERMAL and HS_SENSOR_FAULT. -/
def heatsinkReading (m : Nat) (reading status0 : Int) : Script :=
  .dyn fun s =>
    let t := if s.injectsArg m 5 then s.o (R.injValue m) else reading
    let status := if s.injectsArg m 6 then 2 else if s.injectsArg m 5 then 1 else status0
    if status = 1 then
      all [ put (R.hsTemp m) t,
            put (R.tlNs m) (if t ≤ s.a (R.tlatchRel m) then (if 0 ≤ s.o (R.tlNs m) then s.o (R.tlNs m) else s.now) else -1),
            if s.a (R.tlatchSet m) ≤ t then tripCause m tThermal else .skip ]
    else if 2 ≤ status then .seq (put (R.tlNs m) (-1)) (tripCause m tSensor)
    else .skip

end Sys2Proof.Machine
end

