-- ==== Sys2Proof/Machine/LightLoad.lean ====
section
/-!
DEFINITION. Light load (spec/07_phase_scheduling_protection.md R159–R164): the shedding ladder, burst windows and the
load-step abort; and carrier placement (R155–R157).
-/

namespace Sys2Proof.Machine

/-! ## Carrier placement -/

/-- P_base of R132. -/
def pBase (k : Int) : Int := if k ≤ 0 then 4000000 else 4000000 / k

/-- D(m,j) of R155 for the frame `frame`. -/
def State.legDelay (s : State) (frame n : Nat) : Int :=
  let m := n / 4
  let q := pBase (s.a (R.carrierK n)) / 4
  let slot : Int := if s.a (R.rotate m) = 1 then ((n % 4 : Nat) - (frame : Int)) % 4 else (n % 4 : Nat)
  s.o (R.phaseNow m) + slot * q

/-- Φ_target of R156. -/
def State.phaseGoal (s : State) (m : Nat) : Int :=
  let base := s.a (R.phaseOfs m)
  match s.connTo m with
  | some k =>
    let l := (s.connected k).filter fun x => !((legs x).all fun n => s.o (R.chShed n) = 1 || !s.avail n)
    if s.a (R.interleave m) = 1 && l.contains m then
      base + ((l.filter (· < m)).length : Int) * pBase (s.a (R.carrierK (4 * m))) / (4 * (l.length : Int))
    else base
  | none => base

/-- PHASE_OFFSET_MOVE (R157): at a PFB, by at most a floor(P_base / 8) along the number line. -/
def movePhase (m : Nat) : Script :=
  .dyn fun s =>
    let g := s.phaseGoal m
    let p := s.o (R.phaseNow m)
    let step := pBase (s.a (R.carrierK (4 * m))) / 8
    .seq (put (R.phaseTarget m) g) (put (R.phaseNow m) (p + clamp (-step) step (g - p)))

/-- The delays of the frame that begins (R155, R158). -/
def placeCarriers (frame : Nat) : Script :=
  each (upTo 192) fun n =>
    .dyn fun s => .seq (put (R.chDelayOld n) (s.o (R.chDelay n))) (put (R.chDelay n) (s.legDelay frame n))

/-! ## The ladder (R159) -/

/-- The lowest-numbered available legs of a module. -/
def State.lowest (s : State) (m c : Nat) : List Nat := ((legs m).filter s.avail).take c

/-- M_ℓ of R159 for M modules. -/
def ladderM (mAll lvl : Nat) : Nat := (mAll + 2 ^ (lvl - 2) - 1) / 2 ^ (lvl - 2)

/-- The modules a level of 3 or more keeps: M_ℓ of lowest key(m) at the PFB. -/
def State.keptMods (s : State) (k lvl : Nat) : List Nat :=
  let all := s.connected k
  if lvl ≤ 2 then all
  else (sortBy (fun m => (modKey s.frame m : Int)) all).take (ladderM all.length lvl)

/-- The legs a level keeps in the given modules. -/
def State.keptLegs (s : State) (lvl : Nat) (mods : List Nat) : List Nat :=
  mods.flatMap fun m =>
    if lvl = 0 then (legs m).filter s.avail
    else if lvl = 1 then
      if s.avail (4 * m) && s.avail (4 * m + 2) then [4 * m, 4 * m + 2] else s.lowest m 2
    else s.lowest m 1

/-- Whether a level exists: the ladder ends at the first level with M_ℓ = 1. -/
def levelExists (mAll lvl : Nat) : Bool := lvl ≤ 2 || (0 < mAll && 1 < ladderM mAll (lvl - 1))

/-- 4 × cap(ℓ): the sum of MOD_I_MAX over the legs kept, mA. -/
def State.cap4 (s : State) (legsKept : List Nat) : Int := sumOver legsKept fun n => s.a (R.modIMax (n / 4))

/-- The modules kept at the level in force. -/
def State.llKept (s : State) (k : Nat) : List Nat :=
  let lvl := (s.o (R.shedLevel k)).toNat
  if lvl ≤ 2 then s.connected k else (s.connected k).filter fun m => bit (s.o (R.llMods k)) m

/-- Σc of R163. -/
def State.sumC (s : State) (k : Nat) : Int := sumOver (s.connected k) (s.cmk · k)

/-- Whether no handover of output k is in flight. -/
def State.noHandover (s : State) (k : Nat) : Bool := s.d.handovers.all (·.k != k)

/-- Put a mode's legs in place: kept ones close, the others open (R160). -/
def applyLegs (k : Nat) (kept : List Nat) : Script :=
  .dyn fun s =>
    each ((s.connected k).flatMap legs) fun n =>
      if kept.contains n then .seq (put (R.chShed n) 0) (closeLeg n)
      else .dyn fun s => onlyIf (s.avail n) (.seq (put (R.chShed n) 1) (openLeg n))

/-- SHED_STEP (R160, R161): one level down at a PFB.
[DEDUCED, log 26] -/
def shedStep (k : Nat) : Script :=
  .dyn fun s =>
    let lvl := (s.o (R.shedLevel k)).toNat
    let en := s.a (R.llEnable k)
    let mAll := (s.connected k).length
    if s.os k = osEnergy && (en = 1 || en = 2) && s.o (R.llMode k) != 2 && levelExists mAll (lvl + 1) && 0 < mAll
        && s.noHandover k && s.o (R.llSettle k) ≤ s.now && s.o (R.llRamp k) != 1 && s.o (R.rampOn k) != 1
        && 0 ≤ s.o (R.llNs k) && s.a (R.shedDwellUs k) ≤ s.usSince (s.o (R.llNs k)) then
      let mods := s.keptMods k (lvl + 1)
      all [ put (R.shedLevel k) (lvl + 1), put (R.llMode k) 1, put (R.llNs k) (-1),
            put (R.llMods k) (mods.foldl (fun a m => a + 2 ^ m) 0),
            if lvl + 1 ≤ 2 then applyLegs k (s.keptLegs (lvl + 1) mods)
            else
              .seq (put (R.llRamp k) 1)
                (startRamp k (s.connected k) (weightsOf s.frame (mods.map fun m => (m, s.cmk m k)))) ]
    else .skip

/-- The end of a shedding ramp (R161): the legs of the shed modules go OPEN at the first PFB after it. -/
def shedRampEnd (k : Nat) : Script :=
  .dyn fun s =>
    onlyIf (s.o (R.llRamp k) = 1 && s.rampDone k)
      (all [ put (R.llRamp k) 0, put (R.rampOn k) 0,
             applyLegs k (s.keptLegs (s.o (R.shedLevel k)).toNat (s.llKept k)) ])

/-! ## Burst (R163, R164) -/

/-- Windows in samples. -/
def State.wOn (s : State) (k : Nat) : Int :=
  match s.llKept k with
  | m :: _ => cdiv (s.a (R.burstK k) * 500) (s.a (R.carrierK (4 * m)))
  | [] => 1
def State.wOff (s : State) (k : Nat) : Int :=
  match s.llKept k with
  | m :: _ => cdiv (s.a (R.burstOffK k) * 500) (s.a (R.carrierK (4 * m)))
  | [] => 0

/-- The sample count since entry at which half-window `h` ends: even halves fire, odd ones sleep. -/
def State.halfEnd (s : State) (k h : Nat) : Int := ((h / 2 : Nat) + 1 : Int) * s.wOn k + ((h + 1) / 2 : Nat) * s.wOff k

/-- The module that fires in half-window `h`: rank (i + c) mod M_b in window i of cycle c. -/
def burstRank (mb h : Nat) : Nat := if mb = 0 then 0 else ((h / 2) % mb + (h / 2) / mb) % mb

/-- Set the legs and the weights of half-window `h`. -/
def burstApply (k h : Nat) : Script :=
  .dyn fun s =>
    let kept := s.llKept k
    let fire := if h % 2 = 0 then kept[burstRank kept.length h]? else none
    each kept fun m =>
      .seq (put (R.modShare m) (if fire = some m then 32768 else 0))
        (each (s.keptLegs (s.o (R.shedLevel k)).toNat [m]) fun n =>
          if fire = some m then .seq (put (R.chShed n) 0) (closeLeg n)
          else .dyn fun s => onlyIf (s.avail n) (.seq (put (R.chShed n) 1) (openLeg n)))

/-- Sample count used for windows: 500 × FRAME_NO + next sample, modulo the wrap. -/
def State.gNext (s : State) : Int := 500 * (s.frame : Int) + s.next.val

/-- BURST_ENTRY (R163): at a PFB, with every kept module on one CARRIER_K and the load low for SHED_DWELL_US.
[DEDUCED, log 26] -/
def burstEntry (k : Nat) : Script :=
  .dyn fun s =>
    let kept := s.llKept k
    let ks := kept.map fun m => s.a (R.carrierK (4 * m))
    if s.os k = osEnergy && s.o (R.llMode k) = 1 && s.a (R.llEnable k) = 2 && !kept.isEmpty
        && ks.all (fun x => some x = ks.head?) && s.o (R.llRamp k) != 1
        && 0 ≤ s.o (R.llBurstNs k) && s.a (R.shedDwellUs k) ≤ s.usSince (s.o (R.llBurstNs k)) then
      all [ put (R.llMode k) 2, put (R.llStart k) s.gNext, put (R.llCount k) 0, put (R.llSum k) 0, put (R.llN k) 0,
            burstApply k 0 ]
    else .skip

/-- BURST_WINDOW (R163, R164): a window ends; the next module fires or all sleep; after a whole cycle the mean of
|I_tot| decides the exit.
[DEDUCED, log 26] -/
def execBurstWindow (k : Out) (s : State) : Host.Outcome State Fault Refusal :=
  doesIf (fun s => s.o (R.llMode k) = 2 && 0 ≤ s.o (R.llCount k)
      && decide (s.halfEnd k (s.o (R.llCount k)).toNat ≤ (s.gNext - s.o (R.llStart k)) % 2147483648000))
    (.dyn fun s =>
      let h := (s.o (R.llCount k)).toNat + 1
      let mb := (s.llKept k).length
      let cycle := decide (0 < mb) && h % (2 * mb) = 0
      all [ put (R.llCount k) h,
            if cycle then
              all [ if s.a (R.burstExit k) * s.sumC k * s.o (R.llN k) < s.o (R.llSum k) * 32768
                      then put (R.llAbort k) 1 else .skip,
                    put (R.llSum k) 0, put (R.llN k) 0 ]
            else .skip,
            burstApply k h ]) s

/-- LOAD_STEP_ABORT (R162): every available shed leg closes, the weights of R93 apply at once, NORMAL, settle. -/
def loadAbort (k : Nat) : Script :=
  .dyn fun s =>
    onlyIf (s.o (R.llAbort k) = 1)
      (.seq (put (R.llAbort k) 0)
        (onlyIf (s.o (R.llMode k) != 0)
          (all [ each ((s.connected k).flatMap legs) fun n =>
                   .dyn fun s => onlyIf (s.o (R.chShed n) = 1) (.seq (put (R.chShed n) 0) (closeLeg n)),
                 put (R.llMode k) 0, put (R.shedLevel k) 0, put (R.llRamp k) 0, put (R.rampOn k) 0, put (R.llCount k) (-1),
                 put (R.llAborts k) (s.o (R.llAborts k) + 1), put (R.llSettle k) (s.now + s.a (R.settleUs k) * 1000),
                 put (R.llNs k) (-1), put (R.llBurstNs k) (-1),
                 formWeights k ])))

/-- What each sample records for light load (R160, R162, R163), after |I_tot| is known. -/
def llTrack (k : Nat) : Script :=
  .dyn fun s =>
    if s.os k != osEnergy then .skip
    else
      let i : Int := (s.o (R.iTotalRef k)).natAbs
      let lvl := (s.o (R.shedLevel k)).toNat
      let mAll := (s.connected k).length
      let next := s.cap4 (s.keptLegs (lvl + 1) (s.keptMods k (lvl + 1)))
      let here := s.cap4 (s.keptLegs lvl (s.llKept k))
      let keep := fun (c : Bool) (r : Key) => put r (if c then (if 0 ≤ s.o r then s.o r else s.now) else -1)
      all [ keep (levelExists mAll (lvl + 1) && decide (i * 32768 * 4 ≤ s.a (R.shedFill k) * next)) (R.llNs k),
            keep (decide (i * 32768 ≤ s.a (R.burstEnter k) * s.sumC k)) (R.llBurstNs k),
            if s.o (R.llMode k) != 0 &&
                (decide (s.a (R.restoreFill k) * here < i * 32768 * 4)
                  || decide ((if s.o (R.llMode k) = 2 then 2 else 1) ≤ s.o (R.llClamped k))
                  || s.d.handovers.any (fun h => h.k = k && h.step = 1))
              then put (R.llAbort k) 1 else .skip,
            each ((s.connected k).flatMap legs) fun n =>
              put (R.llRole n)
                (if s.o (R.llMode k) = 2 then
                   (if s.o (R.chShed n) != 1 then 2 else if (s.llKept k).contains (n / 4) then 3 else 1)
                 else if s.o (R.chShed n) = 1 then 1 else 0),
            if s.o (R.llMode k) = 1 && s.o (R.llRamp k) != 1 then
              each ((s.keptLegs lvl (s.llKept k)).filter fun n => s.o (R.chShed n) = 1) fun n =>
                .seq (put (R.chShed n) 0) (closeLeg n)
            else .skip,
            if s.o (R.llMode k) = 2 then
              .seq (put (R.llSum k) (s.o (R.llSum k) + i)) (put (R.llN k) (s.o (R.llN k) + 1))
            else .skip ]

end Sys2Proof.Machine
end

