-- ==== Sys2Proof/Machine/Mpl.lean ====
section
/-!
DEFINITION. The mains-pulse link (spec/14_mains_pulse_link.md R292–R306): crossings, the frame's code and its decoder,
polling, beacon cycles and what events do to them. The decision of R294 is made before a frame reaches the model:
a half cycle arrives decided or erased.
-/

namespace Sys2Proof.Machine

/-! ## The code (R295–R299) -/

/-- n bits of a number, most significant first. -/
def msbBits : Nat → Nat → List Bool
  | 0, _ => []
  | n + 1, v => v.testBit n :: msbBits n v

/-- A number from bits, most significant first. -/
def ofMsb (l : List Bool) : Nat := l.foldl (fun a b => 2 * a + (if b then 1 else 0)) 0

/-- SYNC (R295). -/
def mplSync : List Bool := [true, true, true, true, false, true, false, false]

/-- The coded pair for an input bit and the six bits before it, the newest in bit 0 (R297). -/
def convOut (st : Nat) (b : Bool) : Bool × Bool :=
  let t := fun i => st.testBit i
  ((((b != t 0) != t 1) != t 2) != t 5, (((b != t 1) != t 2) != t 4) != t 5)

/-- The state after an input bit. -/
def convNext (st : Nat) (b : Bool) : Nat := (2 * st + (if b then 1 else 0)) % 64

/-- The coded bits of inputs from a state. -/
def convolve : Nat → List Bool → List Bool
  | _, [] => []
  | st, b :: t => (convOut st b).1 :: (convOut st b).2 :: convolve (convNext st b) t

/-- The 64 half cycles of a block with a 26-bit payload (R297, R298). -/
def mplBlock (payload : List Bool) : List Bool :=
  let c := convolve 0 (payload ++ List.replicate 6 false)
  (upTo 64).map fun h => c.getD (8 * (h % 8) + h / 8) false

/-- A message (R296): ADDR, TYPE, DATA padded to 26 B − 18 bits, CRC. -/
def mplMessage (addr type blocks : Nat) (data : List Nat) : List Bool :=
  let bits := data.flatMap fun x => msbBits 8 x
  let n := 26 * blocks - 18
  let body := msbBits 6 addr ++ msbBits 4 type ++ (bits ++ List.replicate n false).take n
  body ++ msbBits 8 (crc8 body)

/-- The half cycles of a frame (R295). -/
def mplFrame (addr type blocks : Nat) (data : List Nat) : List Bool :=
  let m := mplMessage addr type blocks data
  let cnt := (msbBits 3 (blocks - 1)).flatMap fun b => [b, b]
  mplSync ++ cnt ++ (upTo blocks).flatMap fun i => mplBlock ((m.drop (26 * i)).take 26)

/-- The smallest block count that carries n bytes (R300). -/
def mplBlocks (n : Nat) : Nat := max 1 ((8 * n + 18 + 25) / 26)

/-- The cost of a half cycle against a coded bit; an erased one costs 0 (R299). -/
def mplCost (r : HalfCycle) (b : Bool) : Nat := match r with | some x => if x = b then 0 else 1 | none => 0

/-- One step of the Viterbi decoder: for each of the 64 states in order the best path so far, as its cost and its inputs,
newest in bit 0. States 2i and 2i + 1 have the predecessors i and i + 32; of equal paths that of the lower-numbered one
survives (R299). -/
def viterbiStep (p : List (Option (Nat × Nat))) (r0 r1 : HalfCycle) : List (Option (Nat × Nat)) :=
  let via := fun (pre : Nat) (x : Option (Nat × Nat)) (b : Bool) => match x with
    | some (c, path) =>
      let o := convOut pre b
      some (c + mplCost r0 o.1 + mplCost r1 o.2, 2 * path + (if b then 1 else 0))
    | none => none
  let best := fun (x y : Option (Nat × Nat)) => match x, y with
    | some a, some c => if c.1 < a.1 then some c else some a
    | some a, none => some a
    | none, c => c
  ((upTo 32).zip ((p.take 32).zip (p.drop 32))).flatMap fun x =>
    [best (via x.1 x.2.1 false) (via (x.1 + 32) x.2.2 false), best (via x.1 x.2.1 true) (via (x.1 + 32) x.2.2 true)]

/-- The payload of a block's 64 half cycles, over the terminated trellis (R297–R299), and whether any half cycle was
decided otherwise than sent. -/
def mplDecodeBlock (h : List HalfCycle) : List Bool × Bool :=
  let c := (upTo 64).map fun i => h.getD (8 * (i % 8) + i / 8) none
  let fin := (upTo 32).foldl (fun p t => viterbiStep p (c.getD (2 * t) none) (c.getD (2 * t + 1) none))
    (some (0, 0) :: List.replicate 63 none)
  match fin.getD 0 none with
  | some (cost, path) => ((msbBits 32 path).take 26, 0 < cost)
  | none => ([], true)

/-- A frame as one phase received it: how many SYNC half cycles differ, its block count if its copies agree, and for a
right CRC its message fields: ADDR, TYPE, DATA bits, erased half cycles in the blocks, and whether anything was erased
or corrected. -/
structure MplSeen where
  sync : Nat
  blocks : Option Nat
  msg : Option (Nat × Nat × List Bool)
  erased : Nat
  touched : Bool
deriving DecidableEq, Repr

def mplSee (h : List HalfCycle) : MplSeen :=
  let sync := (((upTo 8).zip mplSync).filter fun x => h.getD x.1 none != some x.2).length
  let cp := (upTo 3).map fun i => (h.getD (8 + 2 * i) none, h.getD (9 + 2 * i) none)
  let bc := if cp.all fun x => x.1.isSome && x.1 = x.2 then some (ofMsb (cp.map fun x => x.1.getD false) + 1) else none
  match bc with
  | none => ⟨sync, none, none, 0, true⟩
  | some b =>
    let blk := (upTo b).map fun i => (h.drop (14 + 64 * i)).take 64
    let dec := blk.map mplDecodeBlock
    let m := dec.flatMap (·.1)
    let er := (((h.drop 14).take (64 * b)).filter Option.isNone).length
    let body := m.take (26 * b - 8)
    ⟨sync, some b, if crc8 body = ofMsb (m.drop (26 * b - 8)) then
        some (ofMsb (m.take 6), ofMsb ((m.drop 6).take 4), body.drop 10) else none,
      er, sync != 0 || er != 0 || dec.any (·.2)⟩

/-- A valid frame (R299). -/
def MplSeen.valid (x : MplSeen) : Bool := x.sync ≤ 1 && x.msg.isSome

/-- Why a frame is lost (R306). -/
def MplSeen.cause (x : MplSeen) : Nat := if 1 < x.sync then 1 else if x.blocks.isNone then 2 else 3

/-! ## Stations -/

/-- The station slot with an address. -/
def State.mplSlot (s : State) (addr : Nat) : Option Nat :=
  if addr = 0 then none else (upTo 62).find? fun i => s.a (R.stAddr i) = (addr : Int)

/-- The lowest station address at or above one; 0 none. -/
def State.mplFrom (s : State) (addr : Nat) : Nat :=
  (((upTo 62).map fun i => (s.a (R.stAddr i)).toNat).filter fun x => x != 0 && addr ≤ x).foldl
    (fun b x => if b = 0 || x < b then x else b) 0

/-- Event word of the link (R306). -/
def mplEvent (ev item val : Nat) : Script := event R.mplEventQueue ev item val

/-- A station's poll or slot has failed (R300 step 4). -/
def stationFailed (addr : Nat) : Script :=
  .dyn fun s => match s.mplSlot addr with
    | none => .skip
    | some i =>
      let f := s.o (R.stFails i) + 1
      .seq (put (R.stFails i) f)
        (if s.a R.missLimit ≤ f && s.o (R.mplStState i) != 3 then .seq (put (R.mplStState i) 3) (mplEvent 0xA1 addr 1) else .skip)

/-- The next station in ascending order; after the last, a round is complete (R300). -/
def mplAdvance : Script :=
  .dyn fun s =>
    let n := s.mplFrom ((s.o R.mplAddr).toNat + 1)
    .seq (put R.mplTry 0)
      (if n = 0 then .seq (put R.mplAddr (s.mplFrom 1)) (bump R.pollRound) else put R.mplAddr n)

/-- An attempt at the polled station has failed (R300 step 3). -/
def mplAttemptFailed : Script :=
  .dyn fun s =>
    all [ put R.mplSt 0, put R.mplGap 3,
          if s.a R.mplRetries ≤ s.o R.mplTry then .seq (stationFailed (s.o R.mplAddr).toNat) mplAdvance
          else put R.mplTry (s.o R.mplTry + 1) ]

/-! ## Crossings (R293) -/

/-- T_h, ns: the mean of the last 16 counted periods; 10 ms while none has counted.
[DEDUCED, log 36] -/
def State.mplTh (s : State) : Int :=
  if s.d.mplT.isEmpty then 10000000 else rne (sumOver s.d.mplT id) s.d.mplT.length

/-- The next bit on a phase. -/
def mplPop (p : Nat) : Script :=
  .dyn fun s => .seq (put (R.mplTxBit p) (ofBool ((s.d.mplOut.getD p []).headD false)))
    (upd fun d => { d with mplOut := setAt d.mplOut p ((d.mplOut.getD p []).drop 1) })

/-- The end of a frame's last half cycle on the reference phase. -/
def mplSentEnd : Script :=
  .dyn fun s =>
    let k := s.o R.mplKind
    .seq (bump R.framesTx)
      (if k = 2 then .seq (put R.mplSt 0) (put R.mplGap 4)
       else all [ put R.mplSt (if k = 8 then 5 else 2), put R.mplWait (-1), put R.mplGot 0 ])

/-- MPL_CROSSING (R293): an edge on MPL_ZC; a counted one sends the phase's next bit.
[DEDUCED, log 36] -/
def execMplCrossing (ph : Fin 3) (s : State) : Host.Outcome State Fault Refusal :=
  doesIf (fun s => s.a R.mplMode != 0 && s.island iNW != 0 && s.island iNW != 4 && !s.injectsArg 174 ph.val)
    (.dyn fun s =>
      let per := s.now - s.o (R.mplDet ph)
      let counted := 0 ≤ s.o (R.mplDet ph) && 7690000 ≤ per && per ≤ 11110000
      let ref := (s.a R.mplPhaseSel).toNat
      let isRef := ph.val = ref
      all [ put (R.mplDet ph) s.now,
            if !counted then (if isRef then put R.mplRet 0 else .skip)
            else if isRef then
              all [ upd fun d => { d with mplT := (d.mplT ++ [per]).drop (d.mplT.length - 15) },
                    .dyn fun s => put R.lineFreq (rne 1000000000000 (2 * max 1 s.mplTh)),
                    put R.mplLast s.now, put R.mplRet (min 16 (s.o R.mplRet + 1)),
                    put R.mplGap (max 0 (s.o R.mplGap - 1)),
                    if s.o R.mplSt = 2 || s.o R.mplSt = 5 then put R.mplWait (s.o R.mplWait + 1) else .skip,
                    if s.o R.mplSt = 1 then
                      .seq (mplPop ref) (.dyn fun s => if (s.d.mplOut.getD ref []).isEmpty then mplSentEnd else .skip)
                    else put (R.mplTxBit ref) 0 ]
            else if (s.d.mplOut.getD ref []).length < (s.d.mplOut.getD ph []).length then mplPop ph
            else put (R.mplTxBit ph) 0 ]) s

/-! ## Sending (R300, R301) -/

/-- A frame is loaded; its first half cycle is the next counted crossing of the reference phase.
[DEDUCED, log 36] -/
def mplSend (kind addr blocks : Nat) (data : List Nat) : Script :=
  .dyn fun s =>
    let f := mplFrame addr kind blocks data
    let all3 := s.a R.mplPhases = 1
    let ref := (s.a R.mplPhaseSel).toNat
    all [ upd fun d => { d with mplOut := (upTo 3).map fun p => if all3 || p = ref then f else [] },
          put R.mplSt 1, put R.mplKind kind, send (.mpl (if all3 then 7 else 2 ^ ref) f) ]

/-- The link may start a frame. -/
def State.mplReady (s : State) (mode : Int) : Bool :=
  s.a R.mplMode = mode && s.o R.mplState = 1 && s.onBus && s.o R.mplSt = 0 && s.o R.mplGap = 0 && s.o R.apDown != 1

/-- MPL_POLL (R300): a BROADCAST that was requested goes before the next POLL. -/
def execMplPoll (s : State) : Host.Outcome State Fault Refusal :=
  doesIf (fun s => s.mplReady 1 && (s.o R.mplBcast = 1 || s.mplFrom 1 != 0))
    (.dyn fun s =>
      if s.o R.mplBcast = 1 then
        let n := (s.o R.bcastLen).toNat
        .seq (put R.mplBcast 0) (mplSend 2 63 (mplBlocks n) ((leBytes 23 (s.o R.bcastData).toNat).take n))
      else
        let a := if s.mplFrom (s.o R.mplAddr).toNat = 0 then s.mplFrom 1 else s.mplFrom (s.o R.mplAddr).toNat
        match s.mplSlot a with
        | none => .skip
        | some i =>
          let n := (s.o (R.stTxLen i)).toNat
          .seq (put R.mplAddr a) (mplSend 0 a (mplBlocks n) ((leBytes 23 (s.o (R.stTxData i)).toNat).take n))) s

/-- MPL_BEACON (R301). -/
def execMplBeacon (s : State) : Host.Outcome State Fault Refusal :=
  doesIf (fun s => s.mplReady 2)
    (.dyn fun s => all [ put R.mplAddr (s.mplFrom 1), mplSend 8 63 1 [(s.o R.mplBeacons).toNat % 256],
      put R.mplBeacons (s.o R.mplBeacons + 1) ]) s

/-- MPL_NO_REPLY (R300): the search crossings have passed. -/
def execMplNoReply (s : State) : Host.Outcome State Fault Refusal :=
  doesIf (fun s => s.o R.mplSt = 2 && 6 ≤ s.o R.mplWait && s.onBus)
    (.dyn fun s => .seq (put R.mplSt 3) (sense (.mplLost (s.o R.mplAddr).toNat 4))) s

/-- MPL_SLOT_END (R301): 150 reference half cycles; after the last slot the cycle is complete. -/
def execMplSlotEnd (s : State) : Host.Outcome State Fault Refusal :=
  doesIf (fun s => s.o R.mplSt = 5 && (s.o R.mplAddr = 0 || 151 ≤ s.o R.mplWait) && s.onBus)
    (.dyn fun s =>
      let a := (s.o R.mplAddr).toNat
      let n := if a = 0 then 0 else s.mplFrom (a + 1)
      all [ if a = 0 || s.o R.mplGot = 1 then .skip else sense (.mplLost a 5),
            put R.mplGot 0, put R.mplWait 1,
            if n = 0 then all [ put R.mplSt 0, bump R.pollRound ] else put R.mplAddr n ]) s

/-! ## Receiving (R299, R302, R305) -/

/-- The phase whose copy carries the frame (R302): valid, fewest differing SYNC half cycles, fewest erased, lowest
number; where none is valid, the first copy. -/
def mplBest (l : List (Nat × MplSeen)) : Option (Nat × MplSeen) :=
  match sortBy (fun x => ((x.2.sync * 1024 + x.2.erased) * 4 + x.1 : Nat)) (l.filter fun x => x.2.valid) with
  | x :: _ => some x
  | [] => l.head?

/-- MPL_FRAME_RECEIVED (R299): decoded on each phase that is received; the driving unit stamps a valid REPLY, and a
loss (R304). -/
def execMplFrameReceived (rx : List MplRx) (s : State) : Host.Outcome State Fault Refusal :=
  doesIf (fun s => s.a R.mplMode != 0 && s.o R.mplState = 1 && (s.o R.mplSt = 2 || s.o R.mplSt = 5 || !s.onBus))
    (.dyn fun s =>
      let use := rx.filter fun x => s.a R.mplPhases = 1 || (x.phase.val : Int) = s.a R.mplPhaseSel
      let seen := use.map fun x => (x.phase.val, mplSee x.bits)
      let a := (s.o R.mplAddr).toNat
      let lost := fun (c : Nat) =>
        if !s.onBus then .skip
        else .seq (if s.o R.mplSt = 2 then put R.mplSt 3 else .skip) (sense (.mplLost a c))
      match mplBest seen with
      | none => .skip
      | some (p, x) =>
        if !x.valid then lost x.cause
        else match x.msg, x.blocks with
          | some (addr, type, bits), some b =>
            if s.a R.mplMode = 2 && 2 < b then lost 2
            else if type != 1 || addr != a then .skip
            else
              let n := (26 * b - 18 + 7) / 8
              let bytes := (upTo n).map fun j => BitVec.ofNat 8 (ofMsb (((bits.drop (8 * j)) ++ List.replicate 8 false).take 8))
              .seq (if s.onBus && s.o R.mplSt = 2 then put R.mplSt 3 else .skip)
                (receive (.mplReply addr type b (if s.a R.mplPhases = 1 then p else 3) (min x.erased 255) bytes x.touched))
          | _, _ => .skip) s

/-- A valid REPLY takes effect (R300, R302, R305). -/
def applyMplReply (addr type blocks phase erased : Nat) (data : List Byte) (corrected : Bool) : Script :=
  .dyn fun s =>
    let d := data.map (·.toNat)
    let w0 := 13 * 2 ^ 60 + addr * 2 ^ 54 + type * 2 ^ 50 + (blocks - 1) * 2 ^ 47 + phase * 2 ^ 45 + erased * 2 ^ 37 + s.frame
    let start := s.site - (14 + 64 * blocks) * s.mplTh
    let ws := [w0, start.toNat % 2 ^ 64] ++ (upTo ((d.length + 7) / 8)).map fun i => ofLe ((d.drop (8 * i)).take 8)
    let q := (s.a R.mplRxQueue).toNat
    let due := sumOver (s.d.raised.filter fun r => s.a r.1 = (q : Int)) fun r => (r.2.length : Int)
    let room := decide ((s.queue q).words.length + due.toNat + ws.length ≤ 1024)
    all [ bump R.framesOk, if corrected then bump R.framesCorrected else .skip,
          raise R.mplRxQueue ws, if room then .skip else bump R.framesDropped,
          match s.mplSlot addr with
          | none => .skip
          | some i =>
            let cnt := if s.o (R.stPhLast i) = (phase : Int) then min 3 (s.o (R.stPhCnt i) + 1) else 1
            all [ put (R.stFails i) 0, put (R.stLastFrame i) s.frame,
                  if s.o (R.mplStState i) = 2 then .skip else .seq (put (R.mplStState i) 2) (mplEvent 0xA1 addr 0),
                  put (R.stPhLast i) phase, put (R.stPhCnt i) cnt,
                  if phase < 3 && 3 ≤ cnt && s.o (R.stPhase i) != (phase : Int) then
                    .seq (put (R.stPhase i) phase) (mplEvent 0xA2 addr phase)
                  else .skip ],
          if s.a R.mplMode = 1 then all [ put R.mplAddr addr, put R.mplSt 0, put R.mplGap 3, mplAdvance ] else put R.mplGot 1 ]

/-- A failed attempt or a lost frame takes effect (R299–R301). -/
def applyMplLost (addr cause : Nat) : Script :=
  .dyn fun s =>
    if cause = 5 then stationFailed addr
    else all [ mplEvent 0xA0 (if addr = 0 then 255 else addr) cause,
      if cause = 4 then bump R.noReply
      else .seq (bump R.framesLost) (match s.mplSlot addr with | some i => bump (R.stLost i) | none => .skip),
      if s.a R.mplMode = 1 then .seq (put R.mplAddr addr) mplAttemptFailed else .skip ]

/-! ## Interplay (R303, R304) -/

/-- The frame in progress is cut off, and what waits is forgotten. -/
def mplCut (gap : Int) : Script :=
  all [ upd fun d => { d with mplOut := [[], [], []] }, put R.mplSt 0, put R.mplGap gap,
        each [0, 1, 2] fun p => put (R.mplTxBit p) 0 ]

/-- MPL_NO_MAINS (R303): 3 consecutive expected reference crossings are missing. -/
def execMplNoMains (s : State) : Host.Outcome State Fault Refusal :=
  doesIf (fun s => s.o R.mplState = 1 && decide (3 * s.mplTh ≤ s.now - s.o R.mplLast))
    (all [ put R.mplState 2, put R.mplRet 0, mplCut 0, mplEvent 0xA3 255 1 ]) s

/-- MPL_MAINS_RETURN (R303): 16 consecutive counted crossings; what was interrupted starts again. -/
def execMplMainsReturn (s : State) : Host.Outcome State Fault Refusal :=
  doesIf (fun s => s.o R.mplState = 2 && 16 ≤ s.o R.mplRet) (all [ put R.mplState 1, mplEvent 0xA3 255 0 ]) s

/-- A NET commit has changed 4500h or an ST_ADDR (R303). -/
def mplCommit : Script :=
  .dyn fun s =>
    all [ mplCut 8, put R.mplAddr 0, put R.mplTry 0,
          if s.a R.mplMode = 0 then put R.mplState 0
          else if s.o R.mplState = 0 then .seq (put R.mplState 1) (put R.mplLast s.now) else .skip ]

/-- A station slot whose ST_ADDR a NET commit has changed. -/
def stationCommit (i : Nat) : Script :=
  .dyn fun s => all [ put (R.mplStState i) (if s.a (R.stAddr i) = 0 then 0 else 1), put (R.stFails i) 0, put (R.stPhase i) 3,
    put (R.stPhLast i) 3, put (R.stPhCnt i) 0 ]

/-- A takeover (R304): the interrupted poll is one failed attempt; a beacon cycle starts anew. -/
def mplTakeover : Script :=
  .dyn fun s =>
    if s.o R.mplState = 0 then .skip
    else .seq (if s.a R.mplMode = 1 && s.o R.mplAddr != 0 then mplAttemptFailed else .skip) (mplCut 4)

/-- A write to BCAST_REQ takes effect (R300). -/
def applyBcastReq : Script := put R.mplBcast 1

end Sys2Proof.Machine
end

