-- ==== Sys2Proof/Machine/Can.lean ====
section
/-!
DEFINITION. CAN FD ports and AC front ends (spec/13_can_fd.md R276–R291). CAN_FRAME_RECEIVED and CAN_WAKE, whose
frames may be LOT requests, stand in Access.lean.
-/

namespace Sys2Proof.Machine

/-! ## Ports (R277, R279) -/

/-- Whether a port runs: enabled, or named by CAN_LOT_PORT or FE_PORT (R279). -/
def State.canRuns (s : State) (p : Nat) : Bool :=
  s.island iNW != 0 && (s.a (R.canEnable p) = 1 || s.a R.canLotPort = (p : Int) + 1 || s.a R.fePort = (p : Int) + 1)

/-- Buffer 0 of a port belongs to the resident firmware (R281). -/
def State.canOwned (s : State) (p : Nat) : Bool := s.a R.canLotPort = (p : Int) + 1 || s.a R.fePort = (p : Int) + 1

/-- Nominal bit time, ns (R277). -/
def State.canBitNs (s : State) (p : Nat) : Int := s.a (R.nbrp p) * (1 + s.a (R.ntseg1 p) + s.a (R.ntseg2 p)) * 25 / 2

/-- Event word of a port (R291). -/
def canEvent (p ev item val : Nat) : Script := event (R.canEventQueue p) ev item val

/-- Index of transmit buffer b of port p. -/
def txb (p b : Nat) : Nat := 3 * p + b

/-- A buffer is queued: waiting, pending or in transmission (R280). -/
def State.txbBusy (s : State) (p b : Nat) : Bool :=
  1 ≤ s.o (R.txbState (txb p b)) && s.o (R.txbState (txb p b)) ≤ 3

/-- Bytes as an OCTET value. -/
def octets (l : List Byte) : Nat := ofLe (l.map (·.toNat))

/-- The firmware's next frame enters buffer 0 (R281). -/
def fwLoad (p : Nat) : Script :=
  .dyn fun s =>
    if !s.canOwned p || s.txbBusy p 0 then .skip
    else match s.d.canFw.find? (·.port = p) with
      | none => .skip
      | some f => all [ put (R.txbId (txb p 0)) f.id, put (R.txbFlags (txb p 0)) 6, put (R.txbLen (txb p 0)) f.data.length,
          put (R.txbData (txb p 0)) (octets f.data), put (R.txbTime (txb p 0)) 0, put (R.txbAttempts (txb p 0)) 0,
          put (R.txbStop (txb p 0)) 0, put (R.txbState (txb p 0)) 2 ]

/-- The port wakes for a local cause (R287). -/
def canWaken (p : Nat) (cause : Nat) : Script :=
  .dyn fun s =>
    if s.o (R.portState p) != 4 || s.o (R.canRejoin p) = 1 then put (R.canSleep p) 0
    else all [ put (R.canSleep p) 0, put (R.canRejoin p) 1, put (R.wakeCount p) (s.o (R.wakeCount p) + 1), put (R.wakeCause p) cause,
               canEvent p 0x93 p cause ]

/-- A frame of the firmware for buffer 0: a front-end command that is still queued is replaced in its place (R281), and
a sleeping port wakes (R287). -/
def fwQueue (f : FwFrame) : Script :=
  .dyn fun s =>
    let busy := s.o (R.txbState (txb f.port 0)) = 3
    let mine := s.d.canFw.filter (·.port = f.port)
    let old := (if busy then mine.drop 1 else mine).any fun x => f.fe.isSome && x.fe = f.fe
    let first := (mine.head?.map fun x => decide (x.fe = f.fe)).getD false
    let swap : FwFrame → FwFrame := fun x => if x.port = f.port && x.fe = f.fe then f else x
    all [ upd fun d =>
            let l := if !old then d.canFw ++ [f] else
              -- where the head is in transmission, only what waits behind it is replaced
              if busy && first then
                (d.canFw.takeWhile fun x => !(x.port = f.port && x.fe = f.fe))
                  ++ ((d.canFw.dropWhile fun x => !(x.port = f.port && x.fe = f.fe)).take 1)
                  ++ ((d.canFw.dropWhile fun x => !(x.port = f.port && x.fe = f.fe)).drop 1).map swap
              else d.canFw.map swap
            { d with canFw := l },
          if old && first && !busy && s.txbBusy f.port 0 then put (R.txbData (txb f.port 0)) (octets f.data) else .skip,
          canWaken f.port 3, fwLoad f.port ]

/-- Every queued frame of a port is aborted (R279). -/
def canAbortAll (p : Nat) : Script :=
  .seq (each [0, 1, 2] fun b => .dyn fun s => onlyIf (s.txbBusy p b) (put (R.txbState (txb p b)) 6))
    (upd fun d => { d with canFw := d.canFw.filter (·.port != p) })

/-- The port stops: it rejoins under its new settings, or is off with its queued frames aborted (R279). -/
def canStop (p : Nat) : Script :=
  .dyn fun s =>
    all [ put (R.canStopDue p) 0, put (R.portState p) 0, put (R.canSending p) 0, put (R.canSleep p) 0,
          if s.canRuns p then put (R.canRejoin p) 1 else .seq (put (R.canRejoin p) 0) (canAbortAll p) ]

/-- A NET commit changes what R279 lists: the port stops after the frame in progress. -/
def canReconf (p : Nat) : Script :=
  .dyn fun s => if s.o (R.canSending p) = 0 then canStop p else put (R.canStopDue p) 1

/-- The state of a port that is on the bus: monitoring on a unit that does not drive (R288). -/
def State.canUp (s : State) (p : Nat) : Int :=
  if !s.onBus then 5 else if 128 ≤ s.o (R.canTec p) || 128 ≤ s.o (R.canRec p) then 2 else 1

/-- Ports after a change of gate ownership (R288, R309): a unit that stops driving cuts its transmission off. -/
def canRole : Script :=
  each [0, 1, 2] fun p => .dyn fun s =>
    let st := s.o (R.portState p)
    if st = 0 || st = 4 then .skip
    else if s.onBus then (if st = 5 then put (R.portState p) (s.canUp p) else .skip)
    else all [ each [0, 1, 2] fun b => if s.o (R.txbState (txb p b)) = 3 then put (R.txbState (txb p b)) 2 else .skip,
               put (R.canSending p) 0, put (R.portState p) 5, put (R.canTec p) 0, put (R.canRec p) 0 ]

/-- CAN_REJOIN (R279, R287): 11 recessive bits. -/
def execCanRejoin (p : Port) (s : State) : Host.Outcome State Fault Refusal :=
  doesIf (fun s => s.o (R.canRejoin p) = 1 && s.canRuns p)
    (.dyn fun s => .seq (put (R.canRejoin p) 0) (put (R.portState p) (s.canUp p))) s

/-! ## Transmitting (R280–R284) -/

/-- A request takes effect (R280, R284): timed frames wait, and a port asleep wakes.
[DEDUCED, log 64] -/
def applyTxbRequest (p b : Nat) : Script :=
  .dyn fun s =>
    let x := txb p b
    if s.txbBusy p b then .skip
    else all [ put (R.txbAttempts x) 0, put (R.txbStop x) 0,
               put (R.txbState x) (if s.o (R.txbTime x) = 0 || s.o (R.txbTime x) ≤ s.site then 2 else 1), canWaken p 3 ]

/-- An abort takes effect (R283). -/
def applyTxbAbort (p b : Nat) : Script :=
  .dyn fun s =>
    let x := txb p b
    if s.o (R.txbState x) = 3 then put (R.txbStop x) 1
    else if s.txbBusy p b then put (R.txbState x) 6 else .skip

/-- A buffer may be sent now (R282). -/
def State.txbEligible (s : State) (p b : Nat) : Bool :=
  s.o (R.txbState (txb p b)) = 2 || (s.o (R.txbState (txb p b)) = 1 && s.o (R.txbTime (txb p b)) ≤ s.site)

/-- The order in which frames win under TX_ORDER 0: base identifier, standard before extended, the rest of an extended
identifier, data before remote, buffer number (R282). -/
def State.txbRank (s : State) (p b : Nat) : Int :=
  if s.a (R.txOrder p) = 1 then b
  else
    let id := (s.o (R.txbId (txb p b))).toNat % 536870912
    let fl := s.o (R.txbFlags (txb p b))
    let ext := bit fl 0
    let base := if ext then id / 262144 else id % 2048
    let low := if ext then id % 262144 else 0
    (((base * 2 + (if ext then 1 else 0)) * 262144 + low) * 2 + (if bit fl 3 then 1 else 0)) * 4 + b

/-- The buffer that wins at an idle bus; TX_GUARD_US holds others back before a waiting buffer's time (R282, R284). -/
def State.txbChoice (s : State) (p : Nat) : Option Nat :=
  let guarded := fun b => [0, 1, 2].any fun w =>
    w != b && s.o (R.txbState (txb p w)) = 1 && s.site < s.o (R.txbTime (txb p w))
      && decide (s.o (R.txbTime (txb p w)) - s.site ≤ s.a (R.txGuardUs p) * 1000)
  (sortBy (fun b => s.txbRank p b) ([0, 1, 2].filter fun b => s.txbEligible p b && !guarded b)).head?

/-- The smallest data length of a frame that covers n bytes, classic or FD (R280). -/
def dlcLen (n : Nat) : Nat :=
  if n ≤ 8 then n else if n ≤ 12 then 12 else if n ≤ 16 then 16 else if n ≤ 20 then 20 else if n ≤ 24 then 24
  else if n ≤ 32 then 32 else if n ≤ 48 then 48 else 64

/-- CAN_BUS_IDLE (R282): the port starts one frame. -/
def execCanBusIdle (p : Port) (s : State) : Host.Outcome State Fault Refusal :=
  doesIf (fun s => s.onBus && (s.o (R.portState p) = 1 || s.o (R.portState p) = 2) && s.o (R.canSending p) = 0
      && s.o (R.canStopDue p) != 1)
    (.dyn fun s => match s.txbChoice p with
      | none => .skip
      | some b =>
        let x := txb p b
        let n := (s.o (R.txbLen x)).toNat
        let fl := (s.o (R.txbFlags x)).toNat
        let data := ((leBytes 64 (s.o (R.txbData x)).toNat).take n ++ List.replicate 64 0).take (dlcLen n)
        all [ put (R.txbState x) 3, put (R.txbAttempts x) (s.o (R.txbAttempts x) + 1), put (R.canSending p) (b + 1 : Nat),
              put (R.canSof p) s.site,
              if s.a (R.tdcMode p) = 1 && fl.testBit 1 then draw 7 fun v => put (R.tdcMeasured p) v else .skip,
              send (.can p ((s.o (R.txbId x)).toNat % 536870912) fl (data.map (BitVec.ofNat 8))) ]) s

/-- The buffer's outcome is known on the driving unit; it is a stamped input (R288). -/
def canOutcomeIs (p : Port) (b : Nat) (st : Nat) (time : Int) : Script :=
  if h : b < 3 then sense (.canOutcome p ⟨b, h⟩ st time.toNat) else .skip

/-- A counter of the bus and the port's state that follows (R283).
[DEDUCED, log 64] -/
def canCount (p : Port) (tec rec_ : Int) : Script :=
  .dyn fun s =>
    let was := s.o (R.portState p) = 2
    let passive := decide (128 ≤ tec) || decide (128 ≤ rec_)
    .seq (.seq (put (R.canTec p) (min tec 255)) (put (R.canRec p) (min rec_ 255)))
      (if 255 < tec then
        all [ put (R.portState p) 3, put (R.busoffCount p) (s.o (R.busoffCount p) + 1), put (R.canRecover p) 0,
              each [0, 1, 2] fun b => if s.o (R.txbState (txb p b)) = 3 then put (R.txbState (txb p b)) 2 else .skip,
              put (R.canSending p) 0, canEvent p 0x91 p ((s.o (R.busoffCount p) + 1).toNat % 65536) ]
       else if passive != was then
        .seq (put (R.portState p) (if passive then 2 else 1)) (canEvent p 0x90 p (if passive then 1 else 0))
       else .skip)

/-- CAN_TX_COMPLETE (R283): the transmission ends sent, with arbitration lost, or in an error.
[DEDUCED, log 64] -/
def execCanTxComplete (p : Port) (e : TxEnd) (s : State) : Host.Outcome State Fault Refusal :=
  doesIf (fun s => s.o (R.canSending p) != 0)
    (.dyn fun s =>
      let b := (s.o (R.canSending p) - 1).toNat
      let x := txb p b
      let stop := s.o (R.txbStop x) = 1
      let sof := s.o (R.canSof p)
      let late := s.o (R.txbTime x) != 0 && decide (s.o (R.txbTime x) + s.canBitNs p < sof)
      all [ put (R.canSending p) 0,
            match e with
            | .ok => all [ put (R.txOk p) (s.o (R.txOk p) + 1),
                canCount p (max 0 (s.o (R.canTec p) - 1)) (s.o (R.canRec p)),
                canOutcomeIs p b (if late then 5 else 4) sof ]
            | .arbLost => .seq (put (R.arbLost p) (s.o (R.arbLost p) + 1))
                (if stop then canOutcomeIs p b 6 sof else put (R.txbState x) 2)
            | .error => .seq (put (R.txErrors p) (s.o (R.txErrors p) + 1))
                (if stop then canOutcomeIs p b 6 sof else put (R.txbState x) 2),
            .dyn fun s => if s.o (R.canStopDue p) = 1 then canStop p else .skip ]) s

/-- A transmission's outcome takes effect (R284, R288). -/
def applyCanOutcome (p b st time : Nat) : Script :=
  .dyn fun s =>
    let x := txb p b
    all [ put (R.txbState x) st, put (R.txbStop x) 0, if st = 6 then .skip else put (R.txbSentTime x) time,
          if st = 5 then canEvent p 0x94 p b else .skip,
          if b = 0 && s.canOwned p then
            .seq (upd fun d => { d with canFw := (d.canFw.takeWhile (·.port != p)) ++ (d.canFw.dropWhile (·.port != p)).drop 1 })
              (fwLoad p)
          else .skip ]

/-- TIMED_TX_DUE (R284). -/
def execTimedTxDue (p : Port) (b : Buf) (s : State) : Host.Outcome State Fault Refusal :=
  doesIf (fun s => s.o (R.txbState (txb p b)) = 1 && s.o (R.txbTime (txb p b)) ≤ s.site) (put (R.txbState (txb p b)) 2) s

/-- CAN_ERROR (R283): LAST_ERROR, the counter that ISO 11898-1 steps by 1 or 8, and what follows. -/
def execCanError (p : Port) (e : CanErr) (s : State) : Host.Outcome State Fault Refusal :=
  doesIf (fun s => s.onBus && (s.o (R.portState p) = 1 || s.o (R.portState p) = 2))
    (.dyn fun s =>
      let n : Int := if e.major then 8 else 1
      .seq (put (R.lastError p) e.kind)
        (if e.transmitting then canCount p (s.o (R.canTec p) + n) (s.o (R.canRec p))
         else canCount p (s.o (R.canTec p)) (s.o (R.canRec p) + n))) s

/-- BUSOFF_RECOVERED (R283): 128 occurrences of 11 recessive bits, automatic or after BUSOFF_RECOVER. -/
def execBusoffRecovered (p : Port) (s : State) : Host.Outcome State Fault Refusal :=
  doesIf (fun s => s.o (R.portState p) = 3 && (s.a (R.busoffAuto p) = 1 || s.o (R.canRecover p) = 1))
    (all [ put (R.canRecover p) 0, put (R.canTec p) 0, put (R.canRec p) 0, put (R.portState p) 1, canEvent p 0x92 p 0 ]) s

/-- A write to BUSOFF_RECOVER takes effect. -/
def applyBusoffRecover (p : Nat) : Script :=
  .dyn fun s => onlyIf (s.o (R.portState p) = 3) (put (R.canRecover p) 1)

/-! ## Sleep and wake (R287) -/

/-- CAN_SLEEP_ENTRY (R287): an idle bus, and no buffer waiting, pending or in transmission. -/
def execCanSleepEntry (p : Port) (s : State) : Host.Outcome State Fault Refusal :=
  doesIf (fun s => s.o (R.canSleep p) = 1 && s.o (R.canSending p) = 0 && ([0, 1, 2].all fun b => !s.txbBusy p b)
      && (s.o (R.portState p) = 1 || s.o (R.portState p) = 2 || s.o (R.portState p) = 5))
    (.seq (put (R.canSleep p) 0) (put (R.portState p) 4)) s

/-- Whether a frame wakes a sleeping port (R287). -/
def State.wakesBy (s : State) (p : Nat) (f : CanFrame) : Bool :=
  let id := (if f.ide then 2147483648 else 0) + f.id % 536870912
  let m := (s.a (R.wakeIdMask p)).toNat &&& 0x9FFFFFFF
  let dm := leBytes 8 (s.a (R.wakeDataMask p)).toNat
  let dv := leBytes 8 (s.a (R.wakeData p)).toNat
  !f.brs && (id ^^^ (s.a (R.wakeId p)).toNat) &&& m = 0
    && (upTo 8).all fun i => dm.getD i 0 = 0 ||
      (decide (i < f.data.length) && ((f.data.map (·.toNat)).getD i 0 ^^^ dv.getD i 0) &&& dm.getD i 0 = 0)

/-! ## Receiving (R285, R286) -/

/-- The words of a frame in a queue (R286). -/
def canWords (p flt : Nat) (f : CanFrame) : List Nat :=
  let b := fun (c : Bool) (i : Nat) => if c then 2 ^ i else 0
  let w0 := 12 * 2 ^ 60 + p * 2 ^ 58 + b f.ide 57 + b f.fdf 56 + b f.brs 55 + b f.esi 54 + b f.rtr 53
    + (f.dlc % 16) * 2 ^ 48 + flt * 2 ^ 42 + (if f.ide then f.id % 536870912 else f.id % 2048)
  let d := f.data.map (·.toNat)
  [w0, f.sof % 2 ^ 64] ++ (upTo ((d.length + 7) / 8)).map fun i => ofLe ((d.drop (8 * i)).take 8)

/-- Whether filter i of a port admits a frame (R285). -/
def State.fltAdmits (s : State) (i : Nat) (f : CanFrame) : Bool :=
  let id := (if f.ide then 2147483648 + f.id % 536870912 else f.id % 2048)
  s.a (R.fltEnable i) = 1 && (id ^^^ (s.a (R.fltId i)).toNat) &&& (s.a (R.fltMask i)).toNat &&& 0x9FFFFFFF = 0
    && (s.a (R.fltFormat i) = 0 || (s.a (R.fltFormat i) = 1 && !f.fdf) || (s.a (R.fltFormat i) = 2 && f.fdf))

/-- A frame that filters see takes effect (R285). -/
def applyCanFrame (p : Nat) (f : CanFrame) : Script :=
  .dyn fun s =>
    match (upTo 64).find? fun i => s.fltAdmits (64 * p + i) f with
    | none => put (R.rxNoMatch p) (s.o (R.rxNoMatch p) + 1)
    | some i =>
      let x := 64 * p + i
      let ws := canWords p i f
      let q := (s.a (R.fltQueue x)).toNat
      let due := sumOver (s.d.raised.filter fun r => s.a r.1 = (q : Int)) fun r => (r.2.length : Int)
      let room := decide ((s.queue q).words.length + due.toNat + ws.length ≤ 1024)
      .seq (raise (R.fltQueue x) ws)
        (if room then put (R.fltHits x) (s.o (R.fltHits x) + 1) else put (R.rxDroppedFull p) (s.o (R.rxDroppedFull p) + 1))

/-- The front end whose report an identifier is (R289). -/
def State.feOf (s : State) (p : Nat) (f : CanFrame) : Option Nat :=
  if s.a R.fePort = (p : Int) + 1 && !f.ide then
    (upTo 8).find? fun r => s.a (R.feEnable r) = 1 && (f.id : Int) = s.a R.feIdBase + 2 * r + 1
  else none

/-- A number of n bits as two's complement. -/
def signed (n : Nat) (v : Nat) : Int := if v % 2 ^ n < 2 ^ (n - 1) then (v % 2 ^ n : Nat) else ((v % 2 ^ n : Nat) : Int) - 2 ^ n

/-- A front-end report (R289): one that fails its CRC or repeats ALIVE is discarded. -/
def feReport (r : Nat) (f : CanFrame) : Script :=
  .dyn fun s =>
    let d := f.data.map (·.toNat)
    let alive : Int := d.getD 0 0 / 16
    let ok := f.fdf && d.length = 16 && crc16 (d.take 14) = d.getD 14 0 * 256 + d.getD 15 0
    if s.injectsArg 173 r then .skip
    else if !ok || alive = s.o (R.feAliveRx r) then put (R.feBadReports r) (s.o (R.feBadReports r) + 1)
    else
      let v := fun i => signed 32 (ofLe ((d.drop i).take 4))
      .seq (put (R.feAliveRx r) alive)
        (if h : r < 8 then receive (.feReport ⟨r, h⟩ (d.getD 0 0 % 16) (d.getD 1 0) (v 2) (v 6) (v 10)) else .skip)

/-- Whether a frame is on the port's LOT request identifier (R52): FD frames only. -/
def State.isLotId (s : State) (p : Nat) (f : CanFrame) : Bool :=
  s.a R.canLotPort = (p : Int) + 1 && !f.ide && (f.id : Int) = s.a R.reqIdBase + s.a R.nodeId

/-- A frame received without error (R285): firmware first, then the filters by a stamped input. `lot` is what a LOT
request does. A port that the frame wakes has no error state to move yet (R279, R287). -/
def canDeliver (p : Port) (f : CanFrame) (lot : Script) : Script :=
  .dyn fun s =>
    .seq (.seq (put (R.rxOk p) (s.o (R.rxOk p) + 1))
        (if s.onBus && s.o (R.portState p) != 4 then
          canCount p (s.o (R.canTec p)) (max 0 (min 127 (s.o (R.canRec p)) - 1)) else .skip))
      (if s.isLotId p f then (if f.fdf && s.onBus then lot else .skip)
       else match s.feOf p f with
        | some r => feReport r f
        | none => receive (.canFrame p f))

/-! ## Front ends (R289, R290) -/

/-- FE_STATE takes a value (R291). -/
def feTo (r : Nat) (st : Int) : Script :=
  .dyn fun s => onlyIf (s.o (R.feState r) != st)
    (.seq (put (R.feState r) st)
      (canEvent (s.a R.fePort - 1).toNat 0x95 (0x20 + r) st.toNat))

/-- A valid report takes effect (R289, R290). A STATE that the report's coding leaves open keeps FE_STATE.
[DEDUCED, log 64] -/
def applyFeReport (r : Nat) (st fault : Nat) (vdc idc pac : Int) : Script :=
  all [ put (R.feVdc r) vdc, put (R.feIdc r) idc, put (R.fePac r) pac, put (R.feFault r) fault,
        .dyn fun s => put (R.feLast r) s.frame, if st < 4 then feTo r (st + 2) else .skip ]

/-- Little-endian bytes of an I32. -/
def le32 (v : Int) : List Nat := leBytes 4 (v % 4294967296).toNat

/-- A command frame (R289). -/
def State.feFrame (s : State) (r : Nat) (alive : Int) : List Nat :=
  let cmd := if s.o (R.feReset r) = 1 then 2 else if s.a (R.feRun r) = 1 then 1 else 0
  let b := [alive.toNat * 16 + cmd, 0] ++ le32 (s.a (R.feVdcSet r)) ++ le32 (s.a (R.fePLim r)) ++ le32 (s.a (R.feQSet r))
  b ++ [crc16 b / 256, crc16 b % 256]

/-- FE_COMMAND (R289): at a PFB whose FRAME_NO is a multiple of FE_PERIOD_FRAMES. -/
def execFeCommand (s : State) : Host.Outcome State Fault Refusal :=
  doesIf (fun s => s.next.val = 0 && 1 ≤ s.a R.fePort && s.o R.feDone != (s.frame : Int) && s.o R.apDown != 1
      && (s.frame : Int) % (max 1 (s.a R.fePeriodFrames)) = 0 && s.island iNW != 0)
    (.seq (.dyn fun s => put R.feDone s.frame)
      (each (upTo 8) fun r => .dyn fun s => onlyIf (s.a (R.feEnable r) = 1)
        (let alive := (s.o (R.feAlive r) + 1) % 16
         all [ put (R.feAlive r) alive,
               fwQueue ⟨(s.a R.fePort - 1).toNat, some r, (s.a R.feIdBase).toNat + 2 * r,
                 (s.feFrame r alive).map (BitVec.ofNat 8)⟩,
               put (R.feReset r) 0 ]))) s

/-- FE_LOST (R290): no valid report for FE_TIMEOUT_FRAMES. -/
def execFeLost (r : Fe) (s : State) : Host.Outcome State Fault Refusal :=
  doesIf (fun s => s.a (R.feEnable r) = 1 && 2 ≤ s.o (R.feState r) && s.o (R.feState r) ≤ 5
      && decide (s.a R.feTimeoutFrames ≤ ((s.frame + 4294967296 - (s.o (R.feLast r)).toNat) % 4294967296 : Nat)))
    (feTo r 6) s

/-- A NET commit enables or disables a front end. -/
def feCommit : Script :=
  each (upTo 8) fun r => .dyn fun s =>
    if s.a (R.feEnable r) = 1 && 1 ≤ s.a R.fePort then (if s.o (R.feState r) = 0 then feTo r 1 else .skip)
    else if s.o (R.feState r) = 0 then .skip
    else .seq (put (R.feState r) 0) (put (R.feAliveRx r) (-1))

end Sys2Proof.Machine
end

