-- ==== Sys2Proof/Machine/SafetyIsland.lean ====
section
/-!
DEFINITION. The safety island (spec/16_safety_island.md R331–R347): demands, the SF cycle, trips and re-arming, the
insulation monitor, the diagnostics' faults and the response figures.
-/

namespace Sys2Proof.Machine

/-! ## Inputs (R334, R335) -/

/-- The input whose settings govern input i: the even one of a pair. -/
def State.siGov (s : State) (i : Nat) : Nat :=
  if i % 2 = 1 && s.a (R.siPair (i - 1)) = 1 then i - 1 else i
/-- The inputs that input g governs: itself, and the odd one of its pair. -/
def State.siMembers (s : State) (g : Nat) : List Nat := (upTo 16).filter fun i => s.siGov i = g
/-- SI_FUNC as it applies to input i. -/
def State.siFn (s : State) (i : Nat) : Int := s.a (R.siFunc (s.siGov i))
/-- Whether input i demands: low past its filter time, or a latched fault. -/
def State.siDemands (s : State) (i : Nat) : Bool := s.o (R.siDem i) = 1 || s.o (R.siFault i) != 0
/-- SI_STATE of input i. -/
def State.siStateOf (s : State) (i : Nat) : Int :=
  if s.siFn i = 0 then 0
  else if s.o (R.siFault i) != 0 then s.o (R.siFault i)
  else if s.o (R.siDem i) = 1 then 2 else 1

/-- Bring every SI_STATE up to date, with event C3h for a change (R346). -/
def refreshInputs : Script :=
  each (upTo 16) fun i =>
    .dyn fun s =>
      let st := s.siStateOf i
      onlyIf (st != s.o (R.siState i))
        (.seq (put (R.siState i) st) (event R.sfEventQueue 0xC3 i st.toNat))

/-- The SF island evaluates functions while armed or tripped (R331, R341). -/
def State.sfRuns (s : State) : Bool := s.o R.sfState = 1 || s.o R.sfState = 2

/-- Outputs a latched trip ends in the coming control sample: k, or every one (R333). -/
def endsNext (k : Nat) : Script :=
  .dyn fun s => put R.sfEnd ((s.o R.sfEnd).toNat ||| (if k = 255 then 0xFFFFFF else 2 ^ k) : Nat)

/-- A trip: latched, and its outputs end with SAFE_TRIP (R333). -/
def trip (out cause mask : Nat) (fresh : Bool) : Script :=
  .seq (latch out cause 0 mask fresh) (if fresh then endsNext out else .skip)

/-- The condition of the insulation function for output k (R333). -/
def State.insulationLow (s : State) (k : Nat) : Bool :=
  energised (s.os k) &&
    (s.o (R.imdR k) * 1000000 < s.a (R.imdAlarm k) * s.a (R.outMaxV k) || 3 ≤ s.o (R.imdState k))
    && s.a (R.imdMode k) != 0

/-! ## Demands -/

/-- SAFETY_DEMAND (R333): a function's condition has held for its filter time. An input's filter time is observed at
the ball; insulation, hot-spot and die over-temperature are judged on the block's own registers. -/
def execSafetyDemand (f : SfFn) (s : State) : Host.Outcome State Fault Refusal :=
  match f with
  | .input i =>
    doesIf (fun s => s.siFn i != 0 && s.sfRuns)
      (all [ put (R.siDem i) 1, put (R.siHigh i) 0, put (R.siNew i) 1, refreshInputs ]) s
  | .insulation k =>
    doesIf (fun s => s.sfRuns && s.insulationLow k && 0 ≤ s.o (R.sfImdNs k)
        && decide (s.a (R.imdFiltUs k) ≤ s.usSince (s.o (R.sfImdNs k)))) (put (R.imdDem k) 1) s
  | .hotspot k =>
    doesIf (fun s => s.sfRuns && s.o (R.hotReq k) = 1 && s.a (R.hotspotEn k) = 1) (put (R.hotDem k) 1) s
  | .dieOverTemp => doesIf (fun s => s.sfRuns && s.o R.dieReq = 1) (put R.dieDem 1) s

/-- OV_DEMAND (R336): every evaluation over OV_FILT_US lay above OV_LIMIT; one evaluation per 2 µs. -/
def execOvDemand (k : Out) (s : State) : Host.Outcome State Fault Refusal :=
  doesIf (fun s => s.sfRuns && 0 < s.o (R.sfOvCnt k) && decide (s.a (R.ovFiltUs k) ≤ 2 * s.o (R.sfOvCnt k)))
    (put (R.ovDem k) 1) s

/-- A latched input fault (R334, R335). -/
def inputFault (i : Nat) (code : Int) : Script :=
  .dyn fun s =>
    onlyIf (s.o (R.siFault i) = 0)
      (all [ put (R.siFault i) code, put (R.siFaultNs i) s.now, put (R.siNew i) 1 ])

/-- TEST_PULSE (R334): source t has pulsed; `high` is the mask of inputs that read high in the sample taken 20 µs
before the pulse's end. -/
def execTestPulse (t : Fin 4) (high : Nat) (s : State) : Host.Outcome State Fault Refusal :=
  doesIf (fun s => s.sfRuns && (s.o (R.tpNs t) < 0 || decide (s.a R.tpPeriodUs ≤ s.usSince (s.o (R.tpNs t)))))
    (.dyn fun s => all [ put (R.tpNs t) s.now,
      each ((upTo 16).filter fun i => s.siFn i != 0 && s.a (R.siTp i) = (t.val : Int) && high.testBit i)
        fun i => inputFault i 3,
      refreshInputs ]) s

/-- DISCREPANCY_FAULT (R335): one input of a pair demands and the other stays healthy, for SI_DISC_US. -/
def execDiscrepancyFault (i : Fin 16) (s : State) : Host.Outcome State Fault Refusal :=
  doesIf (fun s => s.sfRuns && i.val % 2 = 0 && s.a (R.siPair i) = 1 && s.siFn i != 0
      && s.siDemands i != s.siDemands (i.val + 1))
    (all [ inputFault i.val 4, inputFault (i.val + 1) 4, refreshInputs ]) s

/-! ## The cycle (R343) -/

/-- Over-voltage first, then the inputs, insulation, hot-spot and die over-temperature (R333, R336). -/
def sfEvaluate : Script :=
  .dyn fun s =>
    all [
      each ((upTo 24).filter fun k => s.o (R.ovDem k) = 1) fun k =>
        .seq (put (R.ovDem k) 0) (trip k 3 (s.a (R.outScoMask k)).toNat true),
      each ((upTo 16).filter fun i => s.siDemands i && s.siFn i = 1) fun i => trip 255 0 255 (s.o (R.siNew i) = 1),
      each ((upTo 16).filter fun i => s.siDemands i && s.siFn i = 2) fun i =>
        let g := s.siGov i
        each ((upTo 24).filter fun k => bit (s.a (R.siOutMask g)) k) fun k =>
          trip k 1 (s.a (R.siScoMask g)).toNat (s.o (R.siNew i) = 1),
      each ((upTo 24).filter fun k => s.o (R.imdDem k) = 1) fun k =>
        .seq (put (R.imdDem k) 0) (trip k 4 (s.a (R.outScoMask k)).toNat true),
      each ((upTo 24).filter fun k => s.o (R.hotDem k) = 1) fun k =>
        .seq (put (R.hotDem k) 0) (trip k 5 (s.a (R.outScoMask k)).toNat true),
      if s.o R.dieDem = 1 then .seq (put R.dieDem 0) (trip 255 6 255 true) else .skip,
      each (upTo 16) fun i => put (R.siNew i) 0 ]

/-- An SF island fault (R340): by role, all groups cut and every output ended, or the balls released and SUSPECT. -/
def sfFault (code : Nat) : Script :=
  .dyn fun s =>
    onlyIf (s.o R.sfState != 3)
      (all [ put R.sfFaultCode code, put R.sfState 3, event R.sfEventQueue 0xC4 255 code,
             if s.drives then trip 255 7 255 true else .seq (setRole roleSuspect) refreshLatches,
             put (R.islandState iSF) 5 ])

/-- What an injection at points 120–147 brings to a cycle (R388): a demand past its filter time, a test-pulse fault, a
discrepancy past its time, or a diagnostic's fault. -/
def sfInjected : Script :=
  .dyn fun s =>
    let d := (s.o R.injRunning).toNat
    let arg := s.o (R.injArg d)
    let i := d - 120
    let g := s.siGov i
    if !s.injects d then .skip
    else if 120 ≤ d && d < 136 then
      if arg = 0 then
        onlyIf (s.siFn i != 0 && s.o (R.siDem i) != 1 && decide (s.a (R.siFiltUs g) ≤ s.usSince (s.o R.injNs)))
          (all [ put (R.siDem i) 1, put (R.siNew i) 1 ])
      else if arg = 1 then onlyIf (s.siFn i != 0) (inputFault i 3)
      else onlyIf (s.siFn i != 0 && s.a (R.siPair g) = 1 && decide (s.a (R.siDiscUs g) ≤ s.usSince (s.o R.injNs)))
        (each (s.siMembers g) fun j => inputFault j 4)
    else if 140 ≤ d && d < 147 then sfFault (d - 139)
    else .skip

/-- The newest reading of the metrology island on output k, mA, which the SF island has without a stamp.
[DEDUCED, log 18] -/
def State.mtReading (s : State) (k : Nat) : Int := rne (s.o (R.mI k 0) + s.o (R.mI k 1)) 2000

/-- A ramp that CA_RESET has handed to the SF island (R77, R106): below 2 A the contactors open and the output ends.
[DEDUCED, log 18] -/
def sfEndsRamp (k : Nat) : Script :=
  .dyn fun s =>
    onlyIf (s.os k = osRamp && s.o (R.outEndCause k) = 9 && below2A (s.mtReading k))
      (all [ coil (outExp k) (outCoil k 0) false true, coil (outExp k) (outCoil k 1) false true,
             enterState k osEnded 9 ])

/-- SF_CYCLE (R343): one cycle of T_CYC_US. `safeIn` are the levels of SAFE_IN outside any mask, `scoRead` those of
the SCO balls at its end.
[DEDUCED, log 32] -/
def execSfCycle (safeIn scoRead : Nat) (s : State) : Host.Outcome State Fault Refusal :=
  doesIf (fun s => s.sfRuns && (s.o R.sfCycNs < 0 || decide (s.o R.tCycUs ≤ s.usSince (s.o R.sfCycNs))))
    (.dyn fun s => all [
      put R.sfCycNs s.now,
      each (upTo 24) fun k =>
        put (R.sfImdNs k) (if s.insulationLow k then (if 0 ≤ s.o (R.sfImdNs k) then s.o (R.sfImdNs k) else s.now) else -1),
      sfInjected, sfEvaluate, each (upTo 24) sfEndsRamp,
      each (upTo 16) fun i =>
        let high := safeIn.testBit i && !s.injectsArg (120 + i) 0
        .seq (put (R.siHigh i) (ofBool high)) (if high then put (R.siDem i) 0 else .skip),
      refreshInputs, refreshLatches, put R.scoRead (scoRead % 256 : Nat) ]) s

/-- What a control sample takes from the SF island (R333, R345): legs of the groups that are cut enter TRIPPED with
cause SCO, those of released groups leave it, and outputs end with SAFE_TRIP. The start-up cut is no trip. -/
def scoSample : Script :=
  .dyn fun s =>
    let own := if s.o R.sfState = 0 then 0 else (s.o R.scoCut).toNat
    let cut := own ||| (if s.o R.sfPartner = 0 then 0 else (s.o R.sfPartnerCut).toNat)
    let ends := s.o R.sfEnd
    all [ each (upTo 48) fun m =>
            .dyn fun s =>
              if s.nPm ≤ m then .skip
              else if cut.testBit (m / 6) then tripCause m tSco
              else if bit (s.o (R.tripCauses m)) tSco then releaseCauses m [tSco] else .skip,
          put R.sfEnd 0,
          if ends = 0 then .skip else
            each ((upTo 24).filter fun k => bit ends k) fun k =>
              .dyn fun s => onlyIf (osIso ≤ s.os k && s.os k ≤ osWeld) (endBy k 1) ]

/-! ## Insulation monitor (R337) -/

/-- Binary digits of a square root, from the highest. -/
def natSqrtAux : Nat → Nat → Nat → Nat → Nat
  | 0, _, r, _ => r
  | fuel + 1, n, r, b =>
    let c := r + b
    natSqrtAux fuel n (if c * c ≤ n then c else r) (b / 2)

/-- floor of the square root of n, for n below 2^512. -/
def natSqrt (n : Nat) : Nat := natSqrtAux 257 n 0 (2 ^ 256)

/-- 2^frac in 128 fractional bits, where frac = num / den < 1, by 100 binary digits of it; `f` is the factor
2^(2^-i) of the present digit, whose square root is the next one's. -/
def pow2FracAux : Nat → Nat → Nat → Nat → Nat → Nat
  | 0, _, _, _, acc => acc
  | fuel + 1, num, den, f, acc =>
    let f' := natSqrt (f * 2 ^ 128)
    if den ≤ 2 * num then pow2FracAux fuel (2 * num - den) den f' (acc * f' / 2 ^ 128)
    else pow2FracAux fuel (2 * num) den f' acc

def pow2Frac (num den : Nat) : Nat := pow2FracAux 100 num den (2 ^ 129) (2 ^ 128)

/-- floor(10 × 2^((D − 5 %) / 5 %)) kΩ for D = high / period held within 5 % and 95 % (R337): the exponent is
20 D − 1, so the value is 5 × 2^(20 D).
[DEDUCED, log 30] -/
def imdOhms (periodUs highUs : Nat) : Nat :=
  let h := min (max (20 * highUs) periodUs) (19 * periodUs)
  5 * 2 ^ (h / periodUs) * pow2Frac (h % periodUs) periodUs / 2 ^ 128

/-- The class of a period (R337): an IMD_STATE code. -/
def imdClass (periodUs highUs : Nat) : Nat :=
  if periodUs = 0 || highUs * 1000 < 40 * periodUs || 960 * periodUs < highUs * 1000 then 4
  else if 90000 ≤ periodUs && periodUs ≤ 110000 then 1
  else if 45000 ≤ periodUs && periodUs ≤ 55000 then 2
  else if 18000 ≤ periodUs && periodUs ≤ 22000 then 3
  else 4

/-- IMD_STATE and IMD_R take a classification; the hold of R108 sees it. -/
def imdTake (k : Nat) (c : Nat) (r : Int) : Script :=
  all [ put (R.imdState k) c, if c = 2 then .skip else put (R.imdR k) r, isoHold k ]

/-- IMD_CLASSIFY (R337): in mode 2 one period of the signal and its high time, which counts once two consecutive
periods agree; in mode 1 the level, high where `highUs` is not 0.
[DEDUCED, log 32] -/
def execImdClassify (k : Out) (periodUs highUs : Nat) (s : State) : Host.Outcome State Fault Refusal :=
  doesIf (fun s => s.a (R.imdMode k) != 0)
    (.dyn fun s =>
      let inj := s.injects (72 + k)
      let arg := (s.o (R.injArg (72 + k))).toNat
      if s.a (R.imdMode k) = 1 then imdTake k 1 (if highUs = 0 || (inj && arg = 0) then 0 else 4294967295)
      else
        let c := if inj then (if arg ≤ 1 then 1 else arg) else imdClass periodUs highUs
        let r : Int := if inj then (if arg = 1 then s.o (R.injValue (72 + k)) else 0) else imdOhms periodUs highUs
        .seq (if s.o (R.imdLast k) = c then imdTake k c (if c = 1 then r else 0) else .skip)
          (put (R.imdLast k) c)) s

/-- IMD_NO_EDGE (R337): no edge for 300 ms in mode 2. -/
def execImdNoEdge (k : Out) (s : State) : Host.Outcome State Fault Refusal :=
  doesIf (fun s => s.a (R.imdMode k) = 2) (.seq (put (R.imdLast k) 4) (imdTake k 4 0)) s

/-! ## Forced opening and faults (R338–R340) -/

/-- FORCED_CONTACTOR_OPEN (R338): output k in FAULT; below 2 A for 10 ms, or CONTACT_FORCE_US after the entry. -/
def execForcedContactorOpen (k : Out) (s : State) : Host.Outcome State Fault Refusal :=
  doesIf (fun s => s.os k = osFault
      && (s.coilOn (outExp k) (outCoil k 0) || s.coilOn (outExp k) (outCoil k 1))
      && (s.quiet10 k || decide (s.a R.contactForceUs ≤ s.usSince (s.o (R.outNs k)))))
    (.dyn fun s => all [ put (R.outWant k) ((s.o (R.outWant k)).toNat &&& 4 : Nat),
      coil (outExp k) (outCoil k 0) false true, coil (outExp k) (outCoil k 1) false true ]) s

/-- SF_DIAG_FAULT (R339, R340). -/
def execSfDiagFault (code : Nat) (s : State) : Host.Outcome State Fault Refusal :=
  doesIf (fun _ => 1 ≤ code && code ≤ 7) (sfFault code) s

/-- SF_DISAGREE (R345): the two units' SF_STATE or OUT_LOCK have differed for 1 s. -/
def execSfDisagree (s : State) : Host.Outcome State Fault Refusal :=
  doesIf (fun s => 0 ≤ s.o R.sfDiffNs && decide (1000000 ≤ s.usSince (s.o R.sfDiffNs))) (put R.sfDisagree 1) s

/-! ## Re-arming (R342) -/

/-- Contactors of a stuck-closed lock of output k: its DC coils, and selectors towards it, that were found stuck. -/
def State.stuckCoils (s : State) (k : Nat) : List (Nat × Nat) :=
  ([(outExp k, outCoil k 0), (outExp k, outCoil k 1)] ++
    (upTo 48).filterMap fun m => (s.selector m k).map fun i => (selExp m, selCoil m i)).filter
      fun x => bit (s.o (R.expStuck x.1)) x.2

/-- Whether the condition of a latch has gone (R335, R342). -/
def State.latchGone (s : State) (l : Latch) : Bool :=
  if l.lock = 1 then (s.stuckCoils l.out).all fun x => s.auxOpen2 x.1 x.2
  else if l.lock = 2 then
    s.auxOpen2 (outExp l.out) (outCoil l.out 0) && s.auxOpen2 (outExp l.out) (outCoil l.out 1)
  else if l.cause = 0 then (upTo 16).all fun i => !(s.siFn i = 1 && s.siDemands i)
  else if l.cause = 1 then (upTo 16).all fun i =>
    !(s.siFn i = 2 && s.siDemands i && bit (s.a (R.siOutMask (s.siGov i))) l.out)
  else if l.cause = 3 then s.o (R.sfVOut l.out) ≤ s.a (R.ovLimit l.out)
  else if l.cause = 4 then !s.insulationLow l.out
  else if l.cause = 5 then s.o (R.hotReq l.out) != 1
  else if l.cause = 6 then s.o R.dieReq != 1
  else if l.cause = 7 then false
  else if l.cause = 16 then !bit (s.o R.sfPartnerLocks) l.out
  else true

/-- The re-arm at the falling edge: `rise` is the time of the rising edge. -/
def reArm (rise : Int) : Script :=
  .dyn fun s =>
    all [
      each ((upTo 16).filter fun i => s.o (R.siFault i) != 0 && s.o (R.siFaultNs i) < rise
          && (s.siMembers (s.siGov i)).all fun j => s.o (R.siHigh j) = 1) fun i => put (R.siFault i) 0,
      .dyn fun s =>
        let gone := s.d.latches.filter fun l => l.since < rise && s.latchGone l
        all [ each (gone.filter (·.lock = 1)) fun l =>
                each (s.stuckCoils l.out) fun x => .dyn fun s =>
                  put (R.expStuck x.1) (withBit (s.o (R.expStuck x.1)) x.2 false),
              upd fun d => { d with latches := d.latches.filter fun l => !(gone.contains l) },
              refreshLatches, refreshInputs ],
      .dyn fun s => event R.sfEventQueue 0xC1 255 s.d.latches.length ]

/-- SAFE_RESET (R342): the falling edge of a sequence; the input had been low for `lowUs` and then high for
`highUs`. A high of less than 100 ms, or one that follows too short a low, is rejected; one longer than 2 s is
ignored, and RESET_STATE 2 clears once the input has been low for 100 ms. -/
def execSafeReset (lowUs highUs : Nat) (s : State) : Host.Outcome State Fault Refusal :=
  doesIf (fun s => s.sfRuns)
    (.dyn fun s =>
      if 2000000 < highUs then .skip
      else if s.o R.resetState = 2 && lowUs < 100000 then .skip
      else if lowUs < 100000 || highUs < 100000 then .seq (put R.resetState 0) (event R.sfEventQueue 0xC2 255 1)
      else .seq (put R.resetState 0) (reArm (s.now - highUs * 1000))) s

/-- SAFE_RESET_TOO_LONG (R342): held high for more than 2 s.
[DEDUCED, log 32] -/
def execSafeResetTooLong (s : State) : Host.Outcome State Fault Refusal :=
  doesIf (fun s => s.o R.resetState != 2) (.seq (put R.resetState 2) (event R.sfEventQueue 0xC2 255 2)) s

/-! ## Response times and the configuration (R343, R344) -/

/-- T_CYC_US and the response figures. A tested input adds its mask time. -/
def responseTimes : Script :=
  .dyn fun s =>
    let outs := (upTo 24).filter fun k => s.a (R.outletType k) != 0
    let mods := (upTo 48).filter fun m => !(s.reach m).isEmpty || s.a (R.batPort m) = 1
    let t : Int := if 4 < outs.length then 236 else 20 + 5 * outs.length + 2 * mods.length
    let inp := fun (f : Int) => ((upTo 16).filter fun i => s.siFn i = f).foldl
      (fun (b : Int) i => max b ((if s.a (R.siTp i) = 4 then 0 else s.a R.tpWidthUs + 50)
        + s.a (R.siFiltUs (s.siGov i)) + 2 * t + 24)) 0
    all [ put R.tCycUs t, put R.respEstopUs (inp 1), put R.respGstopUs (inp 2),
          put R.respOvUs (outs.foldl (fun (b : Int) k =>
            max b (s.a (R.ovFiltUs k) + cdiv (96 * s.o R.sdclkActive) 1000 + t + 4)) 0),
          put R.respImdUs (outs.foldl (fun (b : Int) k => max b (s.a (R.imdFiltUs k) + 200000 + 2 * t + 4)) 0) ]

/-- IMD_STATE where the mode alone says it (R337): 0 in mode 0, 1 in mode 1. -/
def imdModes : Script :=
  each (upTo 24) fun k => .dyn fun s =>
    let md := s.a (R.imdMode k)
    if md = 0 then put (R.imdState k) 0 else if md = 1 then put (R.imdState k) 1 else .skip

/-- An accepted SAFE commit that changed an active value trips the site with cause CONFIG (R344). -/
def configTrip : Script := trip 255 8 255 true

end Sys2Proof.Machine
end

