-- ==== Sys2Proof/Machine/Loops.lean ====
section
/-!
DEFINITION. Converter channels and control loops (spec/06_converter_loops.md R126–R154): filters, the compensator,
coefficient checks, profile generators, voltage and node loops, the split, the channel loops and the modulator.
-/

namespace Sys2Proof.Machine

/-! ## Filters (R126–R129) -/

/-- M of R126: modulator periods in a sample. -/
def State.bitsPerSample (s : State) : Nat := 2000 / (s.o R.sdclkActive).toNat

/-- C(n, 2). -/
def choose2 (n : Int) : Int := if n < 2 then 0 else n * (n - 1) / 2

/-- h_j of R128: the coefficients of (1 + z⁻¹ + … + z^−(R−1))³. -/
def sincH (osr j : Int) : Int := choose2 (j + 2) - 3 * choose2 (j - osr + 2) + 3 * choose2 (j - 2 * osr + 2)

/-- x of R128 over a window whose newest bit is bit 0. -/
def sinc3 (osr : Nat) (window : Nat) : Int :=
  if osr = 0 then 0
  else sumOver (upTo (3 * osr - 2)) (fun j => if window.testBit j then sincH osr j else -(sincH osr j))
    * one28 / (osr ^ 3 : Nat)

/-- The window of a bitstream input; an input that no sample has fed holds the alternating pattern, whose filtered
value is 0 (log 5). -/
def State.sdWindow (s : State) (i : Nat) : Option Nat := (s.d.sdWin.find? (·.1 = i)).map (·.2)

/-- x of an input; without any bits fed it is 0. -/
def State.filterX (s : State) (osr : Int) (i : Nat) : Int :=
  match s.sdWindow i with
  | none => 0
  | some w => sinc3 osr.toNat w

/-- Shift the latched bits of a sample into the windows (R127): `sd` lists inputs with their M bits, the newest in
bit 0.
[DESIGN CHOICE, log 5] -/
def shiftBits (m : Nat) (sd : List (Nat × Nat)) (win : List (Nat × Nat)) : List (Nat × Nat) :=
  sd.foldl (fun w x =>
    let old := match w.find? (·.1 = x.1) with
      | some y => y.2
      | none => (2 ^ 766 - 1) / 3
    upsert (·.1 = x.1) (x.1, (old * 2 ^ m + x.2 % 2 ^ m) % 2 ^ 766) w) win

/-- A calibrated current input (R129). -/
def State.calI (s : State) (n : Nat) (x : Int) : Int := satQ (rnd28 ((x - s.a (R.iOffset n)) * s.a (R.iGain n)))

/-- VIN_m in use (3480h + m.01): VIN_FIXED, or the report of the enabled front end that feeds the module, 0 while that
front end is lost or has sent none (R290). -/
def State.vinOf (s : State) (m : Nat) : Int :=
  if s.a (R.vinSource m) = 1 then
    match (upTo 8).find? fun r => s.a (R.feEnable r) = 1 && bit (s.a (R.feModules r)) m with
    | some r => if 2 ≤ s.o (R.feState r) && s.o (R.feState r) ≤ 5 then s.o (R.feVdc r) else 0
    | none => 0
  else s.a (R.vinFixed m)

/-- Step 1 of R152: every filter output, its status object in engineering units, and the SF island's own evaluation
(R336).
[DEDUCED, log 35] -/
def latchFilters (sd : List (Nat × Nat)) : Script :=
  .seq (.dyn fun s => upd fun d => { d with sdWin := shiftBits s.bitsPerSample sd d.sdWin })
    (.dyn fun s => all [
      each (upTo s.nCh) fun n =>
        let x := s.filterX (s.a (R.sincOsr n)) n
        .seq (put (R.chX n) x) (put (R.chI n) (rnd28 (s.calI n x * s.a (R.iFs n)))),
      each (upTo s.nPm) fun m =>
        let x := s.filterX (s.a (R.linkOsr m)) (192 + m)
        all [ put (R.modX m) x, put (R.vLink m) (rnd28 (x * s.a (R.linkVFs m))), put (R.vin m) (s.vinOf m) ],
      each (upTo s.nOut) fun k =>
        let x := s.filterX (s.a (R.vOsr k)) (240 + k)
        -- an injected voltage counts once the filter's window of 94 bits holds nothing else (R388)
        let sf := if s.injects (48 + k) && decide (188000 ≤ (s.now - s.o R.injNs) * s.bitsPerSample)
          then s.o (R.injValue (48 + k)) else rnd28 (s.filterX 32 (240 + k) * s.a (R.sfVFs k))
        all [ put (R.outX k) x, put (R.vOut k) (rnd28 (x * s.a (R.vFs k))), put (R.sfVOut k) sf,
              put (R.sfOvCnt k) (if s.a (R.ovLimit k) < sf then s.o (R.sfOvCnt k) + 1 else 0) ],
      .dyn fun s => each (upTo s.nOut) fun k =>
        put (R.iOut k) (sumOver ((s.connected k).flatMap legs) fun n => s.o (R.chI n)) ])

/-! ## The compensator (R137) -/

/-- Ten coefficients of a bank or of a voltage-loop set; CHECK is apart. -/
structure Coef where
  b0 : Int
  b1 : Int
  b2 : Int
  a1 : Int
  a2 : Int
  kfi : Int
  kfo : Int
  lo : Int
  hi : Int
  awLo : Int
  awHi : Int
deriving DecidableEq, Repr

/-- The eleven values from a key on, in one of the three copies. -/
def coefAt (rd : Key → Int) (k : Key) : Coef :=
  ⟨rd k, rd (k + 1), rd (k + 2), rd (k + 3), rd (k + 4), rd (k + 5), rd (k + 6), rd (k + 7), rd (k + 8), rd (k + 9),
    rd (k + 10)⟩

/-- What one evaluation gives: u, z1, z2, and whether u was clamped, and at the upper limit. -/
structure CompOut where
  u : Int
  z1 : Int
  z2 : Int
  sat : Bool
  satHi : Bool
deriving DecidableEq, Repr

/-- The law of R137; `fi` may depend on y (R138). -/
def comp (c : Coef) (e z1 z2 : Int) (fi : Int → Int) (fo lo hi awLo awHi : Int) : CompOut :=
  let y := sat40 (z1 + rnd28 (c.b0 * e))
  let ff := rnd28 (c.kfi * fi y) + rnd28 (c.kfo * fo)
  let u := clamp lo hi (y + ff)
  let z1n := sat40 (rnd28 (c.b1 * e - c.a1 * y + z2 * one28))
  let z2n := sat40 (rnd28 (c.b2 * e - c.a2 * y))
  ⟨u, clamp (awLo - ff) (awHi - ff) z1n, z2n, u != y + ff, decide (hi < y + ff)⟩

/-! ## Coefficient checks (R142) -/

/-- The bytes of a 32-bit value, little-endian. -/
def bytes4 (v : Int) : List Nat :=
  let n := (v % 4294967296).toNat
  [n % 256, n / 256 % 256, n / 65536 % 256, n / 16777216]

/-- The eleven values in subindex order. -/
def Coef.list (c : Coef) : List Int := [c.b0, c.b1, c.b2, c.a1, c.a2, c.kfi, c.kfo, c.lo, c.hi, c.awLo, c.awHi]

/-- Status of a set with its CHECK word (R142). -/
def coefStatus (c : Coef) (check : Int) : Int :=
  if c.list.all (· = 0) then 0
  else if check != (crc32c (c.list.flatMap bytes4) : Int) then 2
  else if !(decide (c.a2.natAbs < one28.toNat) && decide (0 ≤ one28 + c.a1 + c.a2)
      && decide (0 < one28 - c.a1 + c.a2)) then 3
  else 1

/-! ## Profile generators (R147, R148) -/

/-- The floor of a square root. -/
def isqrt (x : Int) : Int := natSqrt x.toNat

/-- Sign. -/
def sign (x : Int) : Int := if x < 0 then -1 else if 0 < x then 1 else 0

/-- One step of a generator: p, v, a after it. -/
def genStep (g p v a vs as js : Int) : Int × Int × Int :=
  let d := g - p
  let q := as * as / (2 * js)
  let vc := sign d * min vs (isqrt (2 * as * d.natAbs + q * q) - q)
  let ac := sign (vc - v) * min as (isqrt (2 * js * (vc - v).natAbs))
  let an := a + clamp (-js) js (ac - a)
  let vn := clamp (-vs) vs (v + an)
  let an := if vn != v + an then vn - v else an
  let p := p + vn
  if decide ((g - p).natAbs ≤ (2 * as).toNat) && decide (vn.natAbs ≤ (2 * as).toNat) then (g, 0, 0) else (p, vn, an)

/-- The per-step limits of R147 for an output, from its active values. -/
def genLimits (k : Nat) : Script :=
  .dyn fun s =>
    let t := 2 * s.a (R.outerDiv k)
    let j := fun (x : Int) => max 1 (rne (x * t * t * t) 1000)
    all [ put (R.vVs k) (s.a (R.pvRate k) * 1000 * t), put (R.vAs k) (s.a (R.pvAcc k) * t * t),
          put (R.vJs k) (j (s.a (R.pvJerk k))),
          put (R.iVs k) (s.a (R.piRate k) * 1000 * t), put (R.iAs k) (s.a (R.piAcc k) * t * t),
          put (R.iJs k) (j (s.a (R.piJerk k))) ]

/-- The target of the current-limit generator, mA (R150). -/
def State.iTarget (s : State) (k : Nat) : Int :=
  if s.os k = osEnergy then min (s.o (R.outGrantI k)) (s.o (R.outCapI k)) else s.a (R.prechgILim k)

/-- A limit that falls acts in the sample in which it falls (R150). -/
def limitFalls (k : Nat) : Script :=
  .dyn fun s =>
    onlyIf (eligible (s.os k) && decide (s.iTarget k * 1000000 < s.o (R.piP k)))
      (all [ put (R.piP k) (s.iTarget k * 1000000), put (R.piV k) 0, put (R.piA k) 0 ])

/-- The current-limit generator at an outer tick. -/
def genI (k : Nat) : Script :=
  .dyn fun s =>
    onlyIf (eligible (s.os k))
      (let r := genStep (s.iTarget k * 1000000) (s.o (R.piP k)) (s.o (R.piV k)) (s.o (R.piA k))
        (s.o (R.iVs k)) (s.o (R.iAs k)) (max 1 (s.o (R.iJs k)))
       all [ put (R.piP k) r.1, put (R.piV k) r.2.1, put (R.piA k) r.2.2 ])

/-- The voltage generator's target, nV (R108, R150): in ISOLATION_TEST not raised before both contactors are
confirmed. -/
def State.vTarget (s : State) (k : Nat) : Int :=
  let g := min (s.o (R.outReqV k)) (s.a (R.outMaxV k)) * 1000000
  if s.os k = osIso && !s.mainsClosed k then min g (s.o (R.pvP k)) else g

/-- The voltage generator at an outer tick. -/
def genV (k : Nat) : Script :=
  .dyn fun s =>
    let r := genStep (s.vTarget k) (s.o (R.pvP k)) (s.o (R.pvV k)) (s.o (R.pvA k))
      (s.o (R.vVs k)) (s.o (R.vAs k)) (max 1 (s.o (R.vJs k)))
    all [ put (R.pvP k) r.1, put (R.pvV k) r.2.1, put (R.pvA k) r.2.2 ]

/-! ## The voltage loop (R143, R144) -/

/-- I_LIM in nA and I_NEG in mA (R144).
[DEDUCED, log 24] -/
def State.iLim (s : State) (k : Nat) : Int :=
  let st := s.os k
  if eligible st then s.o (R.piP k)
  else if st = osRamp || st = osWeld then s.o (R.outLim k) * 1000000 else 0

/-- PV_VALUE, PI_VALUE (the limit as it stands, R144) and PROFILE_FLAGS.
[DEDUCED, log 24] -/
def genShow (k : Nat) : Script :=
  .dyn fun s =>
    let vOk := s.o (R.pvP k) = s.vTarget k && s.o (R.pvV k) = 0 && s.o (R.vlRun k) = 1
    let iOk := s.o (R.piP k) = s.iTarget k * 1000000 && s.o (R.piV k) = 0 && eligible (s.os k)
    all [ put (R.pvValue k) (rne (s.o (R.pvP k)) 1000000), put (R.piValue k) (rne (s.iLim k) 1000000),
          put (R.profileFlags k) ((if iOk then 2 else 0) + (if vOk then 1 else 0)) ]

/-- |I_NEG| as it stands (R144). -/
def State.iNegNow (s : State) (k : Nat) : Int :=
  let st := s.os k
  if st = osIso || st = osPre then s.a (R.prechgILim k) else if st = osEnergy then s.o (R.iNeg k) else 0

/-- The limits of u as they stand (R144). -/
def State.uHi (s : State) (k : Nat) : Int :=
  min (s.a (R.voutHi k)) (rne (s.iLim k * one28) (pos (s.a (R.outIFs k)) * 1000000))
def State.uLo (s : State) (k : Nat) : Int :=
  max (s.a (R.voutLo k)) (-(rne (s.iNegNow k * 1000000 * one28) (pos (s.a (R.outIFs k)) * 1000000)))

/-- The profile value normalised to V_FS. -/
def State.vRef (s : State) (k : Nat) : Int := satQ (rne (s.o (R.pvP k) * one28) (pos (s.a (R.vFs k)) * 1000000))

/-- The start of an output's loop (R139, R144, R150). -/
def startLoop (k : Nat) : Script :=
  .dyn fun s =>
    all [ put (R.vlRun k) 1, put (R.vlZ1 k) 0, put (R.vlZ2 k) 0, put (R.vlU k) 0,
          put (R.pvP k) (s.o (R.vOut k) * 1000000), put (R.pvV k) 0, put (R.pvA k) 0,
          .dyn fun s => put (R.vlR k) (s.vRef k) ]

/-- At a PFB: the loop starts with the first connected module and stops with none (R144). -/
def loopPfb (k : Nat) : Script :=
  .dyn fun s =>
    if (s.connected k).isEmpty then put (R.vlRun k) 0
    else if s.o (R.vlRun k) = 1 || s.o (R.loopEngine k) % 16 = 15 then .skip else startLoop k

/-- One outer period of the voltage loop. -/
def voltageLoop (k : Nat) : Script :=
  .dyn fun s =>
    let r := s.vRef k
    let c := coefAt s.a (R.vb0 k)
    let lo := s.uLo k
    let hi := s.uHi k
    let fo := rne (s.o (R.iOut k) * one28) (pos (s.a (R.outIFs k)))
    let x := comp c (satQ (r - s.o (R.outX k))) (s.o (R.vlZ1 k)) (s.o (R.vlZ2 k)) (fun _ => r - s.o (R.vlR k)) fo lo hi
      (max c.awLo lo) (min c.awHi hi)
    all [ put (R.vlU k) x.u, put (R.vlZ1 k) x.z1, put (R.vlZ2 k) x.z2, put (R.vlR k) r,
          put (R.llClamped k) (if x.satHi then s.o (R.llClamped k) + 1 else 0) ]

/-- The weights of a ramp's period (R97). -/
def rampTick (k : Nat) : Script :=
  .dyn fun s =>
    let n := pos (s.a (R.outerDiv k))
    let j := ((s.gcount : Int) - s.o (R.ramp0 k)) % 2147483648000 / n + 1
    if s.o (R.rampOn k) = 1 && 1 ≤ j && j ≤ s.o (R.rampN k) then
      let mods := (upTo 48).filter fun m => s.connTo m = some k || s.holds m = k
      each (rampWeights j (s.o (R.rampN k)) (s.o (R.rampKey k))
          (mods.map fun m => (m, s.o (R.modOldW m), s.o (R.modNewW m))))
        fun x => put (R.modShare x.1) x.2
    else .skip

/-- Step 3 of R152 for output k; while no engine runs its loop the generators hold (R154).
[DEDUCED, log 24] -/
def outerTick (k : Nat) : Script :=
  .dyn fun s =>
    .seq (limitFalls k)
      (if s.gcount % (pos (s.a (R.outerDiv k))).toNat != 0 || s.o (R.loopEngine k) % 16 = 15 then genShow k
       else all [ genI k,
         if s.o (R.vlRun k) = 1 && (s.connected k).isEmpty then put (R.vlRun k) 0 else .skip,
         .dyn fun s => onlyIf (s.o (R.vlRun k) = 1) (.seq (genV k) (voltageLoop k)),
         rampTick k, genShow k ])

/-! ## Split and node loops (R145, R146) -/

/-- A module's leg currents: closed legs with their I_leg. -/
def legSplit (closed : List Nat) (im : Int) : List (Nat × Int) :=
  let l : Int := closed.length
  if l = 0 then []
  else
    let q := im / l
    let r := (im % l).toNat
    (upTo closed.length).zip closed |>.map fun x => (x.2, if x.1 < r then q + 1 else q)

/-- A leg takes its reference (R145 step 5). -/
def legRef (n : Nat) (i : Int) : Script :=
  .dyn fun s => .seq (put (R.chIRef n) i) (put (R.chRef n) (satQ (rne (i * one28) (pos (s.a (R.iFs n))))))

/-- Closed legs of a module. -/
def State.closedLegs (s : State) (m : Nat) : List Nat := (legs m).filter fun n => s.cs n = csClosed

/-- Step 5 of R152: output k's current among its connected modules (R145). -/
def split (k : Nat) : Script :=
  .dyn fun s =>
    let uc := clamp (s.uLo k) (s.uHi k) (s.o (R.vlU k))
    let tot := if s.o (R.vlRun k) = 1 then rne (uc * s.a (R.outIFs k)) one28 else 0
    .seq (put (R.iTotalRef k) tot)
      (each (s.connected k) fun m =>
        let lim := s.a (R.modIMax m)
        let im := clamp (-lim) lim (rne (tot * s.o (R.modShare m)) 32768)
        each (legSplit (s.closedLegs m) im) fun x => legRef x.1 x.2)

/-- The legs of a battery port follow the string's share of the battery set-point (R94): discharge is positive in BS_SET
and runs against the legs' direction (R243). The spec gives the port no other law (log 60). -/
def batterySplit (m : Nat) : Script :=
  .dyn fun s =>
    let t := s.a (R.batString m)
    let v := s.o (R.vLink m)
    if s.a (R.batPort m) != 1 || t < 0 || 16 ≤ t then .skip
    else
      let lim := s.a (R.modIMax m)
      let im := if v ≤ 0 then 0 else clamp (-lim) lim (rne (-(s.o (R.bsSetW t.toNat)) * 1000000) v)
      each (legSplit (s.closedLegs m) im) fun x => legRef x.1 x.2

/-- Step 4 of R152: the node loops of the modules in handover steps 1 and 2 (R146, R96). -/
def nodeLoop (m : Nat) : Script :=
  .dyn fun s =>
    if s.o (R.nodeState m) = 0 then .skip
    else
      let k := s.holds m
      let e := s.o (R.vOut k) - s.o (R.vLink m)
      let lim := s.a (R.preregILim m)
      let i := clamp (-lim) lim (rne (s.a (R.nodeKp m) * e) 1000)
      let near := decide (e.natAbs ≤ 2000)
      all [ each (s.closedLegs m) fun n => legRef n i,
            put (R.nodeState m) (if near then 2 else 1),
            put (R.nodeCnt m) (if near then s.o (R.nodeCnt m) + 1 else 0) ]

/-! ## Channel loops (R138, R139) -/

/-- Step 6 of R152 for channel n: full rate in every sample, half rate where G is even. -/
def channelLoop (n : Nat) : Script :=
  .dyn fun s =>
    if s.cs n != csClosed || (s.o (R.loopRate n) = 1 && s.gcount % 2 = 1) then .skip
    else
      let m := n / 4
      let vin := s.o (R.vin m)
      let gin := if vin ≤ 0 then one28 else satQ (rne (s.a (R.vInnom m) * one28) vin)
      let fo := if vin ≤ 0 then 0 else min one28 (rne (s.o (R.vLink m) * one28) vin)
      let c := coefAt s.a (if s.o (R.bankInUse n) = 1 then R.b0B n else R.b0A n)
      let e := satQ (s.o (R.chRef n) - s.calI n (s.o (R.chX n)))
      let x := comp c e (s.o (R.chZ1 n)) (s.o (R.chZ2 n)) (fun y => rnd28 (y * (gin - one28))) fo
        (max c.lo 0) (min c.hi one28) c.awLo c.awHi
      all [ put (R.chDuty n) x.u, put (R.chZ1 n) x.z1, put (R.chZ2 n) x.z2,
            if x.sat then put (R.satSamples n) (s.o (R.satSamples n) + 1) else .skip ]

/-! ## The modulator (R132–R136, R155, R158) -/

/-- Start of carrier period i of a frame with delay d, in ticks from the PFB. -/
def periodStart (ck d i : Int) : Int := d + i * pBase ck + min i (4000000 - ck * pBase ck)

/-- The edges of a period (R133), and whether the pulse was clamped. -/
def pwmEdges (ch : Nat) (start p duty dead minPulse : Int) : Edge × Bool :=
  let t := rne (clamp 0 one28 duty * p) one28
  let t' := if t < dead + minPulse then 0 else if p - dead - minPulse < t then p else t
  let s0 := (p - t') / 2
  (⟨ch, start, start + s0, start + s0 + dead, start + s0 + t', start + s0 + t' + dead⟩, t' != t)

/-- The delay that leg n will have in the frame after (R155, R157, R158), as the present offsets foretell it.
[DEDUCED, log 25] -/
def State.nextDelay (s : State) (n : Nat) : Int :=
  let m := n / 4
  let stp := pBase (s.a (R.carrierK (4 * m))) / 8
  s.legDelay (nextFrame s.frame) n + clamp (-stp) stp (s.phaseGoal m - s.o (R.phaseNow m))

/-- The carrier period of channel n that starts in sample `sm`, with its length: one of this frame, or the frame
before's last one where its start lies beyond the PFB.
[DEDUCED, log 25] -/
def State.periodIn (s : State) (n sm : Nat) : Option (Int × Int) :=
  let ck := s.a (R.carrierK n)
  let d := s.o (R.chDelay n)
  let old := s.o (R.chDelayOld n)
  let a : Int := 8000 * sm
  let i0 := (a - d) / pos (pBase ck)
  let cand := ([i0 - 1, i0, i0 + 1, i0 + 2].filter fun i => 0 ≤ i && i < ck).map fun i =>
    (periodStart ck d i, (if i = ck - 1 then 4000000 + s.nextDelay n else periodStart ck d (i + 1)) - periodStart ck d i)
  let last := periodStart ck old (ck - 1) - 4000000
  (cand ++ [(last, d - last)]).find? fun x => a ≤ x.1 && x.1 < a + 8000 && 0 ≤ x.1

/-- The valley of channel n in the sample, if there is one: the period before ends (R165), and the next one takes the
duty that the sample before computed (R135).
[DEDUCED, log 25] -/
def modulate (n sm : Nat) : Script :=
  .dyn fun s =>
    let refused := s.cs n = csOpen && s.a (R.openMode n) = 1 && !s.manual n
    let fl := withBit (withBit (s.o (R.chFlags n)) 1 refused) 0 false
    if !s.modulates n then put (R.chFlags n) fl
    else
      match s.periodIn n sm with
      | none => put (R.chFlags n) fl
      | some (start, p) =>
        let duty := if s.cs n = csClosed then s.o (R.chDuty n) else s.a (R.manualDuty n)
        let e := pwmEdges n start p duty (s.o (R.deadEff n)) (s.a (R.minPulse n))
        all [ periodEnd n, put (R.chFlags n) (withBit fl 0 e.2),
              upd fun d => { d with edges := d.edges ++ [e.1] } ]

/-! ## What every sample counts for other rules -/

/-- Counts of a module: drain (R96), link over-voltage (R168). -/
def moduleTrack (m : Nat) : Script :=
  .dyn fun s =>
    let v := if s.injectsArg m 4 then s.o (R.injValue m) else s.o (R.vLink m)
    let ov := s.a (R.linkOv m)
    let i := s.modI m
    all [ put (R.drainCnt m) (if below2A i then s.o (R.drainCnt m) + 1 else 0),
          put (R.lowNs m) (if below2A i then (if 0 ≤ s.o (R.lowNs m) then s.o (R.lowNs m) else s.now) else -1),
          put (R.highNs m) (if below2A i then -1 else if 0 ≤ s.o (R.highNs m) then s.o (R.highNs m) else s.now),
          put (R.ovCnt m) (if ov < v then s.o (R.ovCnt m) + 1 else 0),
          put (R.ovLow m) (if v * 100 < ov * 95 then s.o (R.ovLow m) + 1 else 0) ]

/-- Times of a channel: clean running (R167), the hiccup timer (R166).
[DEDUCED, log 27] -/
def channelTrack (n : Nat) : Script :=
  .dyn fun s =>
    .seq (put (R.cleanNs n) (if s.cs n = csClosed then s.o (R.cleanNs n) + 2000 else 0))
      (put (R.hiccupLeftUs n)
        (if s.cs n = csHiccup then max 0 (s.a (R.hiccupOffUs (n / 4)) - s.usSince (s.o (R.hicNs n))) else 0))

/-- The limit of RAMP_DOWN falls in every sample (R150). -/
def rampDownLimit (k : Nat) : Script :=
  .dyn fun s =>
    if s.os k = osRamp then
      let l := max 0 (s.o (R.outLim k) - cdiv (s.o (R.outRate k)) 500)
      .seq (.seq (put (R.outLim k) l) (put (R.piValue k) l))
        (if l = 0 && s.o (R.outZeroNs k) < 0 then put (R.outZeroNs k) s.now else .skip)
    else .skip

/-- Steps 3 to 7 of R152 in sample `sm`. -/
def loopsSample (sm : Nat) : Script :=
  .dyn fun s => all [
    each (upTo s.nOut) rampDownLimit,
    each (upTo s.nOut) outerTick,
    each (upTo s.nPm) nodeLoop,
    each (upTo s.nOut) split,
    each (upTo s.nPm) batterySplit,
    upd fun d => { d with edges := d.edges.filter fun e => 8000 * (sm : Int) ≤ e.lRise },
    each (upTo s.nCh) fun n => modulate n sm,
    each (upTo s.nCh) channelLoop,
    each (upTo s.nPm) moduleTrack,
    each (upTo s.nCh) channelTrack,
    each (upTo s.nOut) fun k => .seq (llTrack k) (pauseTrack k) ]

end Sys2Proof.Machine
end

