-- ==== Sys2Proof/Machine/Engines.lean ====
section
/-!
DEFINITION. Loop engines (spec/06_converter_loops.md R153, R154) and degraded operation
(spec/01_islands_and_frames.md R39, R40).
-/

namespace Sys2Proof.Machine

/-- The slot in LOOP_ENGINE that names no engine. -/
def noEngine : Int := 15

/-- LOOP_ENGINE of a primary and a shadow. -/
def loopEngineOf (primary shadow : Int) : Int := shadow * 16 + primary

/-- Engines as at a start (R153). -/
def assignEngines : Script :=
  .dyn fun s =>
    all [ put R.engineFailMask 0,
          each (upTo s.nCh) fun n =>
            all [ put (R.chEngine n) (n / 16 : Nat), put (R.chSlot n) (-1), put (R.loopRate n) 0, put (R.chRet n) 0,
                  put (R.chStopped n) 0, put (R.bankInUse n) (s.a (R.bankSel n)) ],
          each (upTo s.nOut) fun k => put (R.loopEngine k) (loopEngineOf (k % 12 : Nat) ((k + 6) % 12 : Nat)) ]

/-- The lowest-numbered engine that works and is not the one named. -/
def State.healthyEngine (s : State) (other : Int) : Option Nat :=
  (upTo 12).find? fun e => !bit (s.o R.engineFailMask) e && (e : Int) != other

/-- The lowest-numbered working engine with a free half-rate slot; each has 4 (R39). -/
def State.freeEngine (s : State) : Option Nat :=
  (upTo 12).find? fun e => !bit (s.o R.engineFailMask) e &&
    ((upTo 192).filter fun n => s.o (R.chSlot n) = (e : Int)).length < 4

/-- An engine fails its self-test (R39, R154): its channels go OPEN; where it is a primary the shadow takes over.
[DEDUCED, log 66] -/
def engineFails (e : Nat) : Script :=
  .dyn fun s =>
    onlyIf (!bit (s.o R.engineFailMask) e)
      (all [ put R.engineFailMask (withBit (s.o R.engineFailMask) e true),
             each ((upTo 192).filter fun n => s.o (R.chEngine n) = (e : Int)) fun n =>
               all [ if s.cs n = csClosed then put (R.chStopped n) 1 else .skip, openLeg n,
                     put (R.chEngine n) 255, put (R.chSlot n) (-1), put (R.chRet n) 0 ],
             each (upTo s.nOut) fun k =>
               let p := s.o (R.loopEngine k) % 16
               let sh := s.o (R.loopEngine k) / 16
               if p = (e : Int) then
                 .seq (put (R.loopEngine k) (loopEngineOf sh noEngine)) (if sh = noEngine then put (R.vlRun k) 0 else .skip)
               else if sh = (e : Int) then put (R.loopEngine k) (loopEngineOf p noEngine)
               else .skip ])

/-- A failed engine passes a self-test (R40): its channels go OPEN for one transition and return at the PFB.
[DEDUCED, log 66] -/
def engineReturns (e : Nat) : Script :=
  .dyn fun s =>
    onlyIf (bit (s.o R.engineFailMask) e)
      (.seq (put R.engineFailMask (withBit (s.o R.engineFailMask) e false))
        (each ((upTo 192).filter fun n => n / 16 = e && decide (n < s.nCh)) fun n =>
          all [ put (R.chRet n) 1,
                if s.cs n = csClosed then .seq (put (R.chStopped n) 1) (openLeg n)
                else if s.o (R.chStopped n) = 2 then put (R.chStopped n) (if s.legServes n then 1 else 0)
                else .skip ]))

/-- A channel takes an engine and closes again where it had been CLOSED. -/
def takeEngine (n : Nat) (e slot rate bank : Int) : Script :=
  .dyn fun s =>
    all [ put (R.chEngine n) e, put (R.chSlot n) slot, put (R.loopRate n) rate, put (R.bankInUse n) bank, put (R.chRet n) 0,
          put (R.chStopped n) 0, if s.o (R.chStopped n) = 1 then closeLeg n else .skip, refreshMod (n / 4) ]

/-- The remap of a channel at a PFB (R39, R40). -/
def remapPfb (n : Nat) : Script :=
  .dyn fun s =>
    if s.o (R.chRet n) = 1 then takeEngine n (n / 16 : Nat) (-1) 0 (s.a (R.bankSel n))
    else if s.o (R.chEngine n) != 255 || s.o (R.chStopped n) = 2 || !bit (s.o R.engineFailMask) (n / 16) then .skip
    else if s.o (R.bankBStatus n) != 1 then
      all [ put (R.chStopped n) 2, degrade 3 true, capabilityFell (n / 4) ]
    else match s.freeEngine with
      | some e => .seq (takeEngine n e e 1 1) (degrade 1 true)
      | none => all [ put (R.chStopped n) 2, degrade 2 true, capabilityFell (n / 4) ]

/-- An output's loop at a PFB (R154): a new shadow with the state copied to it, or a restart on the lowest-numbered
working engine, the generators holding their p, v and a. -/
def loopEnginePfb (k : Nat) : Script :=
  .dyn fun s =>
    let p := s.o (R.loopEngine k) % 16
    let le := s.o (R.loopEngine k)
    let pick := fun (other : Int) => match s.healthyEngine other with | some e => (e : Int) | none => noEngine
    if p = noEngine then
      let p' := pick noEngine
      onlyIf (p' != noEngine)
        (all [ put (R.loopEngine k) (loopEngineOf p' (pick p')),
               if (s.connected k).isEmpty then .skip
               else all [ put (R.vlRun k) 1, put (R.vlZ1 k) 0, put (R.vlZ2 k) 0, put (R.vlU k) 0,
                          put (R.vlR k) (s.vRef k) ] ])
    else if le / 16 = noEngine then put (R.loopEngine k) (loopEngineOf p (pick p))
    else .skip

/-- The cause of a degrade flag as it stands (R39).
[DEDUCED, log 66] -/
def State.degradeCause (s : State) (b : Nat) : Bool :=
  match b with
  | 1 => (upTo 192).any fun n => 0 ≤ s.o (R.chSlot n)
  | 2 => (upTo s.nCh).any fun n => s.o (R.chStopped n) = 2 && s.o (R.bankBStatus n) = 1
  | 3 => (upTo s.nCh).any fun n => s.o (R.chStopped n) = 2 && s.o (R.bankBStatus n) != 1
  | 4 => decide (s.rounds < 64)
  | 5 => decide (100000 < s.o R.hkRoundUs)
  | 6 => decide (0 < s.o R.estOver)
  | 7 => s.o R.vrefDrift != 0
  | _ => false

/-- Engines and degrade flags at a PFB. -/
def enginePfb : Script :=
  .dyn fun s =>
    all [ if s.o R.engineFailMask = 0 && !((upTo 192).any fun n => s.o (R.chRet n) = 1) then .skip
          else each (upTo s.nCh) remapPfb,
          each (upTo s.nOut) loopEnginePfb,
          .dyn fun s =>
            let remapped := (upTo 192).any fun n => 0 ≤ s.o (R.chSlot n)
            if s.island iCA = 2 && remapped then put (R.islandState iCA) 3
            else if s.island iCA = 3 && !remapped then put (R.islandState iCA) 2
            else .skip,
          .dyn fun s => each [1, 2, 3, 4, 5, 6, 7] fun b => onlyIf (s.degradeCause b) (put (R.degLast b) s.frame) ]

/-- ENGINE_SELF_TEST (R154): in the frames with FRAME_NO mod 1,000 = 80 e; an injection at point 148 + e makes it
fail (R388). -/
def execEngineSelfTest (e : Isl) (pass : Bool) (s : State) : Host.Outcome State Fault Refusal :=
  doesIf (fun s => s.o R.caRun = 1 && s.o R.inGap != 1 && s.frame % 1000 = 80 * e.val && s.o R.engTestFrame != (s.frame : Int))
    (.dyn fun s =>
      all [ put R.engTestFrame s.frame, bump R.engineTests,
            if pass && !s.injects (148 + e.val) then engineReturns e else .seq (health 2) (engineFails e) ]) s

/-- DEGRADE_CLEAR (R40): at a PFB, the cause having been absent for 1,000 consecutive frames; MT_REF_DRIFT clears as
R182 states. -/
def execDegradeClear (b : Fin 8) (s : State) : Host.Outcome State Fault Refusal :=
  doesIf (fun s => s.next.val = 0 && 1 ≤ b.val && b.val != 7 && bit (s.o R.degradeFlags) b && !s.degradeCause b
      && decide (1000 ≤ ((s.frame : Int) - s.o (R.degLast b)) % 4294967296))
    (degrade b false) s

end Sys2Proof.Machine
end

