-- ==== Sys2Proof/Machine/Folios.lean ====
section
/-!
DEFINITION. Folios (spec/18_folios_and_queues.md R362–R369): two banks each, the choice of the copy in force, requests
and the order in which they run. The two folio commands stand in Persistence.lean, after the owners of the folios.
-/

namespace Sys2Proof.Machine

/-- A blank bank (R369). -/
def Bank.blank : Bank := ⟨0, 0, [], []⟩

/-- Folio `f` of region `r`; both banks blank where none is listed. -/
def State.folio (s : State) (r f : Nat) : Folio :=
  (s.d.folios.find? fun x => x.region = r && x.folio = f).getD ⟨r, f, .blank, .blank⟩

/-- Whether bank A is the one in force where both are valid (R365). -/
def newerA (seqA seqB : Nat) : Bool :=
  let d := (seqA + 4294967296 - seqB) % 4294967296
  d = 0 || d ≤ 2147483648

/-- The bank in force, and whether it is bank B (R365). -/
def Folio.pick (x : Folio) : Option (Bank × Bool) :=
  if x.a.state = 1 && x.b.state = 1 then (if newerA x.a.seq x.b.seq then some (x.a, false) else some (x.b, true))
  else if x.a.state = 1 then some (x.a, false)
  else if x.b.state = 1 then some (x.b, true)
  else none

/-- Whether a folio is unwritten (R369). -/
def Folio.unwritten (x : Folio) : Bool := x.a.state = 0 && x.b.state = 0

/-- Store a folio. -/
def putFolio (x : Folio) : Script :=
  upd fun d => { d with folios := upsert (fun y => y.region = x.region && y.folio = x.folio) x d.folios }

/-- Both supplies stand at or above the folio write threshold (R367). -/
def State.folioSupply (s : State) : Bool := s.o R.supplyLow != 1

/-- REGION_STATE of region r (R366, R369); the highest code that holds. -/
def refreshRegion (r : Nat) : Script :=
  .dyn fun s => put (R.regionState r)
    (if s.o (R.regFail r) = 1 then 3 else if s.o (R.regDef r) != 0 then 2
     else if s.d.folioJobs.any (·.region = r) then 1 else 0)

/-- New content for a folio (R368): it waits behind a write of the same folio that runs, in place of content that waits,
or at the end of the order of requests.
[DESIGN CHOICE, log 62] -/
def folioRequest (r f : Nat) (vals : List Int) (keyed : Store) : Script :=
  let mine : FolioJob → Bool := fun j => j.region = r && j.folio = f
  let take : FolioJob → FolioJob := fun j =>
    if mine j then (if j.running then { j with next := some (vals, keyed) } else { j with vals := vals, keyed := keyed })
    else j
  .seq
    (upd fun d =>
      let l := if d.folioJobs.any mine then d.folioJobs.map take
        else d.folioJobs ++ [⟨r, f, false, false, false, vals, keyed, none⟩]
      { d with folioJobs := l })
    (refreshRegion r)

/-- A write under way or waiting for a folio. -/
def State.folioJob (s : State) (r f : Nat) : Option FolioJob :=
  s.d.folioJobs.find? fun j => j.region = r && j.folio = f

/-- The content that a request would have the folio hold is gone: a write that does not wait for its supply. -/
def dropJob (r f : Nat) : Script :=
  .seq (upd fun d => { d with folioJobs := d.folioJobs.filter fun j => !(j.region = r && j.folio = f) }) (refreshRegion r)

end Sys2Proof.Machine
end

