-- ==== Sys2Proof/Machine/FieldSwitches.lean ====
section
/-!
DEFINITION. Protected field switches (spec/10_field_switches.md R226–R241) and what VFLD does to them (R68).
-/

namespace Sys2Proof.Machine

/-- Whether channel j is one of a pair, and the channel that governs it (R230). -/
def State.fsPaired (s : State) (j : Nat) : Bool := bit (s.a R.fsPair) (j / 2)
def State.fsGov (s : State) (j : Nat) : Nat := if s.fsPaired j then 2 * (j / 2) else j
/-- The channels that channel j governs. -/
def State.fsGroup (s : State) (j : Nat) : List Nat :=
  let g := s.fsGov j
  if s.fsPaired j then [g, g + 1] else [g]

/-- What the source of a channel demands (R227). -/
def State.fsDemand (s : State) (j : Nat) : Bool :=
  let g := s.fsGov j
  let cmd := s.o (R.fsCmd g) = 1
  let din := bit (s.o R.fsDinState) g
  if s.a (R.fsMode g) = 0 then cmd else if s.a (R.fsMode g) = 1 then din else cmd && din

/-- Whether the field die switches its channels (FLD_STATE run or overvoltage). -/
def State.fldRuns (s : State) : Bool := s.o R.fldState = 2 || s.o R.fldState = 5

/-- FS_ON_MASK and FS_FAULT_MASK. -/
def fsMasks : Script :=
  .dyn fun s =>
    .seq (put R.fsOnMask ((upTo 32).foldl (fun a j => if s.o (R.fsOn j) = 1 then a + 2 ^ j else a) 0))
      (put R.fsFaultMask ((upTo 32).foldl (fun a j => if s.o (R.fsFault j) != 0 then a + 2 ^ j else a) 0))

/-- A channel and its pair take a state, on or off.
[DEDUCED, log 37] -/
def fsSet (j : Nat) (st : Int) (on : Bool) : Script :=
  .dyn fun s =>
    .seq (each (s.fsGroup j) fun i =>
        all [ put (R.fsState i) (if i = s.fsGov j then st else 4), put (R.fsOn i) (ofBool on),
              put (R.fsOnNs i) (if on then s.now else -1) ])
      fsMasks

/-- The source of a channel acts, below every fault (R227, R237). -/
def fsSource (j : Nat) : Script :=
  .dyn fun s =>
    let g := s.fsGov j
    let st := s.o (R.fsState g)
    if !s.fldRuns || st = 2 || st = 3 then .skip
    else if s.fsDemand g && st != 1 then fsSet g 1 true
    else if !s.fsDemand g && st != 0 then fsSet g 0 false else .skip

/-- FS_FAULT takes a value; the event word tells of a bit set or cleared (R241). -/
def fsFaults (j : Nat) (v : Int) : Script :=
  .dyn fun s =>
    let old := s.o (R.fsFault j)
    if v = old then .skip
    else all [ put (R.fsFault j) v, fsMasks,
      event R.fsEventQueue (if (v.toNat &&& old.toNat) = old.toNat then 0x60 else 0x61) j v.toNat ]

/-- FLD_STATE takes a value (R241). -/
def fldTo (v : Nat) : Script :=
  .dyn fun s => onlyIf (s.o R.fldState != (v : Int)) (.seq (put R.fldState v) (event R.fsEventQueue 0x63 255 v))

/-- The field die loses its state: every channel off, no fault, no restart pending (R68, R229). -/
def fldAllOff : Script :=
  .seq (each (upTo 32) fun j => all [ put (R.fsState j) 0, put (R.fsOn j) 0, put (R.fsFault j) 0, put (R.fsRestarts j) 0,
      put (R.fsOffNs j) (-1), put (R.fsOnNs j) (-1), put (R.fsNoShort j) 0, put (R.fsNoOpen j) 0 ])
    fsMasks

/-! ## Faults (R233, R234) -/

/-- OVERLOAD (bit 3) or OVERTEMP (bit 4) turns channel j off, with its pair; it latches or waits for its restart. -/
def fsTrip (j b : Nat) : Script :=
  .dyn fun s =>
    let g := s.fsGov j
    let latch := s.a (R.fsOtMode g) = 1 || decide (s.a (R.fsRestartMax g) ≤ s.o (R.fsRestarts g))
    all [ fsSet g (if latch then 3 else 2) false,
          each (s.fsGroup j) fun i => .dyn fun s =>
            .seq (put (R.fsOffNs i) s.now)
              (fsFaults i (withBit (if latch then withBit (s.o (R.fsFault i)) 5 true else s.o (R.fsFault i)) b true)) ]

/-- FS_OVERLOAD (R233): the current limit has acted for FS_LIMIT_US. -/
def execFsOverload (j : Fs) (s : State) : Host.Outcome State Fault Refusal :=
  doesIf (fun s => s.fldRuns && s.o (R.fsOn j) = 1) (fsTrip j 3) s

/-- FS_OVERTEMP (R233): the junction has reached T_SD. -/
def execFsOvertemp (j : Fs) (s : State) : Host.Outcome State Fault Refusal :=
  doesIf (fun s => s.fldRuns && s.o (R.fsOn j) = 1) (fsTrip j 4) s

/-- OVERLOAD and OVERTEMP, and with them LATCHED, clear. -/
def fsClean (j : Nat) : Script :=
  .dyn fun s => each (s.fsGroup j) fun i => .dyn fun s => fsFaults i ((s.o (R.fsFault i)).toNat % 8 : Nat)

/-- FS_RESTART (R234): off for at least 100 ms and cooled; a channel whose source demands nothing stays off. -/
def execFsRestart (j : Fs) (s : State) : Host.Outcome State Fault Refusal :=
  doesIf (fun s => s.fldRuns && s.o (R.fsState (s.fsGov j)) = 2
      && decide (100000 ≤ s.usSince (s.o (R.fsOffNs (s.fsGov j)))))
    (.dyn fun s =>
      let g := s.fsGov j
      if s.fsDemand g then
        all [ each (s.fsGroup g) fun i => bump (R.fsRestarts i), fsSet g 1 true, fsClean g ]
      else .seq (fsSet g 0 false) (fsClean g)) s

/-- FS_RESTART_COUNT_RESET (R234): 10 s on without a fault. -/
def execFsRestartCountReset (j : Fs) (s : State) : Host.Outcome State Fault Refusal :=
  doesIf (fun s => s.o (R.fsOn j) = 1 && 0 ≤ s.o (R.fsOnNs j) && decide (10000000 ≤ s.usSince (s.o (R.fsOnNs j))))
    (.dyn fun s => each (s.fsGroup j) fun i => put (R.fsRestarts i) 0) s

/-! ## Diagnostics (R235) -/

/-- FS_OPEN_ON (R235): the current of a channel that is on has been below FS_OL_ON_MA for 10 ms, or, `below` false, at
or above it for 10 ms. -/
def execFsOpenOn (j : Fs) (below : Bool) (s : State) : Host.Outcome State Fault Refusal :=
  doesIf (fun s => s.fldRuns && s.o (R.fsOn j) = 1 && s.a (R.fsOlOnMa (s.fsGov j)) != 0)
    (.dyn fun s => each (s.fsGroup j) fun i => .dyn fun s => fsFaults i (withBit (s.o (R.fsFault i)) 0 below)) s

/-- V_DIAG of the unit, mV (R240). -/
def vDiag : Int := 2600 + (Config.vDiagOver.val : Int)

/-- One finding over tests: set at once, cleared after two consecutive tests without it. -/
def fsFinding (j b : Nat) (cnt : Key) (found : Bool) : Script :=
  .dyn fun s =>
    if found then .seq (put cnt 0) (fsFaults j (withBit (s.o (R.fsFault j)) b true))
    else .seq (put cnt (s.o cnt + 1))
      (if 1 ≤ s.o cnt then fsFaults j (withBit (s.o (R.fsFault j)) b false) else .skip)

/-- FS_OFF_DIAG_TEST (R235): an off channel's output voltage in the window without the diagnostic source, and in the
window with it.
[DEDUCED, log 37] -/
def execFsOffDiagTest (j : Fs) (mv1 mv2 : Int) (s : State) : Host.Outcome State Fault Refusal :=
  doesIf (fun s => s.fldRuns && s.o (R.fsOn j) != 1 && s.a (R.fsOffDiag (s.fsGov j)) = 1
      && (s.o (R.fsTestNs j) < 0 || decide (100000 ≤ s.usSince (s.o (R.fsTestNs j)))))
    (.dyn fun s => all [ put (R.fsTestNs j) s.now, put (R.fsV j) mv1,
      fsFinding j 2 (R.fsNoShort j) (decide (vDiag < mv1)),
      .dyn fun s => fsFinding j 1 (R.fsNoOpen j) (decide (vDiag < mv2) && !bit (s.o (R.fsFault j)) 2) ]) s

/-! ## Commands and edges (R227, R228, R236) -/

/-- A command takes effect at its stamp. -/
def applyFsCmd (j : Nat) (on : Bool) : Script :=
  .dyn fun s => .seq (put (R.fsCmd (s.fsGov j)) (ofBool on)) (fsSource j)

/-- FS_DIN_EDGE (R227): the field die reads the ball itself, in any reset state of the control die. -/
def execFsDinEdge (j : Fs) (high : Bool) (s : State) : Host.Outcome State Fault Refusal :=
  doesIf (fun s => bit (s.o R.fsDinState) j.val != high)
    (.dyn fun s => .seq (put R.fsDinState (withBit (s.o R.fsDinState) j.val high)) (fsSource j)) s

/-- What a write to FS_CLEAR does (R236): the junction as the die reads it now decides, and the spec gives the reading
no source, so it is a free value.
[DEDUCED, log 37] -/
def applyFsClear (j : Nat) : Script :=
  draw 15 fun tj => .dyn fun s =>
    let g := s.fsGov j
    .seq (put (R.fsTj g) tj)
      (if s.o (R.fsState g) = 3 && tj ≤ 13000 + Config.tCoolOver.val then
        all [ each (s.fsGroup g) fun i => put (R.fsRestarts i) 0, fsClean g,
              fsSet g (if s.fsDemand g then 1 else 0) (s.fsDemand g) ]
       else .skip)

/-! ## Supply (R68, R229, R238) -/

/-- VFLD_LOSS (R68): below V_UVLO for 10 µs. -/
def execVfldLoss (s : State) : Host.Outcome State Fault Refusal :=
  doesIf (fun s => s.o R.fldState != 0) (.seq fldAllOff (fldTo 0)) s

/-- FIELD_DIE_RESTART (R229): supply, ground or polarity is back; the die comes up with every channel off. -/
def execFieldDieRestart (s : State) : Host.Outcome State Fault Refusal :=
  doesIf (fun s => s.o R.fldState != 1) (all [ fldAllOff, fldTo 1, put R.fldResync 1 ]) s

/-- VFLD_OVERVOLTAGE (R238): above 37 V; channels keep their state. -/
def execVfldOvervoltage (s : State) : Host.Outcome State Fault Refusal :=
  doesIf (fun s => s.o R.fldState = 2) (fldTo 5) s

/-- VFLD_OVERVOLTAGE_END (R238). -/
def execVfldOvervoltageEnd (s : State) : Host.Outcome State Fault Refusal :=
  doesIf (fun s => s.o R.fldState = 5) (fldTo 2) s

/-- FGND_LOSS (R238): every channel off, reported while the die can be reached. -/
def execFgndLoss (s : State) : Host.Outcome State Fault Refusal :=
  doesIf (fun s => s.o R.fldState != 4) (.seq fldAllOff (fldTo 4)) s

/-- VFLD_REVERSED (R238): the channels are driven on. -/
def execVfldReversed (s : State) : Host.Outcome State Fault Refusal :=
  doesIf (fun s => s.o R.fldState != 3)
    (all [ fldAllOff, fldTo 3, each (upTo 32) fun j => put (R.fsOn j) 1, fsMasks ]) s

/-- The first PFB after the die reports run (R229). -/
def fieldPfb : Script :=
  .dyn fun s =>
    onlyIf (s.o R.fldResync = 1 && s.o R.fldState = 1)
      (all [ put R.fldResync 0, fldTo 2, put R.fldRestarts (s.o R.fldRestarts + 1),
             each (upTo 32) fun j => .dyn fun s =>
               if s.a (R.fsRestartHold j) = 1 then put (R.fsCmd j) 0 else .skip,
             each (upTo 32) fsSource,
             .dyn fun s => event R.fsEventQueue 0x62 255 (s.o R.fldRestarts).toNat ])

end Sys2Proof.Machine
end

