-- ==== Sys2Proof/Machine/Thermal.lean ====
section
/-!
DEFINITION. Housekeeping, die bands, throttling, the cable model and cooling loops
(spec/09_thermal_cable.md R210–R225).
-/

namespace Sys2Proof.Machine

/-! ## Conversion of external channels (R212) -/

/-- Binary digits of a logarithm of base 2: `m` is in [1, 2) with 128 fractional bits. -/
def log2Frac : Nat → Nat → Nat → Nat
  | 0, _, acc => acc
  | n + 1, m, acc =>
    let q := m * m / 2 ^ 128
    if 2 ^ 129 ≤ q then log2Frac n (q / 2) (2 * acc + 1) else log2Frac n q (2 * acc)

/-- The position of the highest set bit of a number below 2^256. -/
def highBit : Nat → Nat → Nat
  | 0, _ => 0
  | n + 1, x => if x < 2 then 0 else 1 + highBit n (x / 2)

/-- ln(num / den) × 2^80, for positive num and den. -/
def ln80 (num den : Nat) : Int :=
  let x := num * 2 ^ 128 / den
  let e := highBit 512 x
  let m := if 128 ≤ e then x / 2 ^ (e - 128) else x * 2 ^ (128 - e)
  let l : Int := ((e : Int) - 128) * 2 ^ 80 + (log2Frac 80 m 0 : Nat)
  rne (l * 878668439483319573618263538048) (2 ^ 100)

/-- NTC: 1 / (1/298.15 + ln(R_m / NTC_RNOM) / NTC_BETA) − 273.15 °C, in 0.01 °C; none where the sum is not positive.
[DEDUCED, log 30] -/
def ntcTemp (num den : Nat) (beta : Int) : Option Int :=
  let l := ln80 num den
  let d : Int := 2 ^ 80 * beta * 100 + 29815 * l
  if d ≤ 0 then none else some (rne (29815 * 2 ^ 80 * beta * 100) d - 27315)

/-- PT1000 by IEEE 60751's quadratic, in 0.01 °C, for V µV over 250 µA.
[DEDUCED, log 30] -/
def ptTemp (v : Int) : Int :=
  let disc : Int := 39083 * 39083 * 10 ^ 26 + 231 * 10 ^ 32 * (250000 - v) / 250000
  rne ((39083 * 10 ^ 13 - isqrt disc) * 100) (1155 * 10 ^ 11)

/-- A temperature with the range of R212: status and value. -/
def tempStatus (t : Int) : Int × Int := if t < -5500 || 25000 < t then (4, t) else (1, t)

/-- The status and the value of a channel with v µV at its ball (R212). -/
def hkConvert (ty rnom beta lo hi v : Int) : Int × Int :=
  if ty = 0 then (0, 0)
  else if ty = 1 then
    if 2500000 ≤ v || 100 * rnom * (2500000 - v) < 10000 * v then (2, 0)
    else if v ≤ 0 || 10000 * v * 100 < rnom * (2500000 - v) then (3, 0)
    else match ntcTemp (10000 * v).toNat (rnom * (2500000 - v)).toNat beta with
      | none => (4, 0)
      | some t => tempStatus t
  else if ty = 2 then
    if 1000000 < v then (2, 0) else if v < 25000 then (3, 0) else tempStatus (ptTemp v)
  else if ty = 3 then
    if v < -500000 || 10500000 < v then (4, 0) else (1, lo + rne ((hi - lo) * v) 10000000)
  else
    if v < 360000 then (2, 0) else if 2100000 < v then (3, 0) else (1, lo + rne ((hi - lo) * (v - 400000)) 1600000)

/-- Channel c takes a round's voltage: HK_RAW, HK_STATUS after two rounds that agree, HK_VALUE while it is valid; the
unit that drives uses it, and stamps it for the other islands (R210–R212). -/
def hkTake (c : Nat) (v : Int) : Script :=
  .dyn fun s =>
    let ty := s.a (R.hkType c)
    let (st0, val) := hkConvert ty (s.a (R.ntcRnom c)) (s.a (R.ntcBeta c)) (s.a (R.engLo c)) (s.a (R.engHi c)) v
    let st := if s.injectsArg 176 c then s.o (R.injValue 176) else st0
    let old := s.o (R.hkStatus c)
    let first := s.o (R.hkAny c) != 1
    let now := first || st = old || s.o (R.hkNew c) = st + 1
    let use := if now then st else old
    all [ put (R.hkRaw c) v, put (R.hkAny c) 1,
          put (R.hkNew c) (if now then 0 else st + 1),
          put (R.hkStatus c) use,
          if use = 1 && st = 1 then put (R.hkValue c) val else .skip,
          if use != old then event R.hkEventQueue 0x50 c use.toNat else .skip,
          .dyn fun s => onlyIf s.drives
            (all [ put (R.hkUse c) (s.o (R.hkValue c)), put (R.hkUseSt c) use,
                   sense (.hkReading c (s.o (R.hkValue c)) use.toNat) ]) ]

/-- A reading takes effect (R168, R211): the heatsinks of the modules that name the channel. -/
def applyHk (c : Nat) (val : Int) (status : Nat) : Script :=
  .dyn fun s =>
    all [ put (R.hkUse c) val, put (R.hkUseSt c) status,
          each ((upTo 48).filter fun m => s.a (R.hsSensor m) = c) fun m => heatsinkReading m val status ]

/-- A channel's reading in use: none where it is not named or not valid. -/
def State.reading (s : State) (c : Int) : Option Int :=
  if c < 0 || 64 ≤ c then none
  else if s.o (R.hkUseSt c.toNat) = 1 then some (s.o (R.hkUse c.toNat)) else none

/-! ## Die bands (R213, R214, R217) -/

/-- The band that contains a temperature. -/
def bandOf (t : Int) : Int :=
  if t < -2000 then 0 else if t < 2500 then 1 else if t < 8500 then 2 else if t < 10500 then 3 else 4
/-- The lower boundary of a band. -/
def bandLow (b : Int) : Int := if b ≤ 1 then -2000 else if b = 2 then 2500 else if b = 3 then 8500 else 10500
/-- The band after a reading. -/
def bandNext (b t : Int) : Int :=
  if b < bandOf t then bandOf t else if 0 < b && t ≤ bandLow b - 300 then b - 1 else b
/-- The dead-time adder of a band, ticks. -/
def deadAdder (b : Int) : Int := if b = 0 then 8 else if b = 1 then 0 else if b = 2 then 4 else if b = 3 then 8 else 16

/-- T_d takes effect (R213, R217). -/
def applyDieMax (t own : Int) : Script :=
  all [ put R.dieMax t, put R.dieReading 1, put R.dieOwn own, put R.dieReq (ofBool (decide (12500 ≤ t))) ]

/-- Band changes at a PFB, and DEAD_EFF (R21 step 5, R134, R213). -/
def bandPfb : Script :=
  .dyn fun s =>
    .seq
      (if s.o R.dieReading = 1 then
        let b := bandNext (s.o R.band) (s.o R.dieMax)
        all [ put R.dieReading 0, put R.bandOwn (bandNext (s.o R.bandOwn) (s.o R.dieOwn)),
              if b = s.o R.band then .skip
              else all [ put R.band b, put R.bandFrame s.frame, event R.hkEventQueue 0x51 255 b.toNat ] ]
       else .skip)
      (.dyn fun s => each (upTo 192) fun n => put (R.deadEff n) (s.a (R.deadTicks n) + deadAdder (s.o R.band)))

/-! ## Limits that throttling sets (R216, R221) -/

/-- OUT_CAP_I (3600h + k.05): the lowest of the vehicle's limit, if stated, the cable's and the connector's. -/
def refreshCap (k : Nat) : Script :=
  .dyn fun s =>
    let c := min (s.o (R.cableILim k)) (s.a (R.outRatedI k))
    put (R.outCapI k) (if s.o (R.evIKnown k) = 1 then min c (s.o (R.evMaxI k)) else c)

/-- CABLE_I_LIM (R221), and OUT_CAP_I with it. -/
def refreshCable (k : Nat) : Script :=
  .dyn fun s =>
    .seq (put (R.cableILim k)
        (if s.a (R.cableEnable k) = 1 then rne (s.a (R.cableIBoost k) * (20 - s.o (R.cableSteps k))) 20
         else s.a (R.outRatedI k)))
      (refreshCap k)

/-- HEADROOM (R216). -/
def headroom (m : Nat) : Script :=
  .dyn fun s =>
    put (R.modHeadroom m)
      (if s.a (R.hsSensor m) = 255 then 10000
       else match s.reading (s.a (R.hsSensor m)) with
         | some _ => s.a (R.hsWarn m) - s.o (R.hsTemp m)
         | none => 0)

/-- DERATE (R216); one that falls lowers the capability at once (R92). -/
def derateMod (m : Nat) : Script :=
  .dyn fun s =>
    let d := rne (32768 * (20 - s.o (R.hsSteps m)) * (20 - s.o R.dieSteps)) 400
    let old := s.o (R.modDerate m)
    all [ put (R.modDerate m) d, if d < old then capabilityFell m else refreshMod m ]

/-- One step of R215: the new count and the time its release has been counted from. -/
def throttle (s0 : Int) (above below : Bool) (relNs now releaseUs : Int) : Int × Int :=
  if above then (min (s0 + 1) 16, -1)
  else if below then
    if relNs < 0 then (s0, now)
    else if releaseUs ≤ (now - relNs) / 1000 then (max (s0 - 1) 0, now) else (s0, relNs)
  else (s0, -1)

/-- Whether a cable is above its warnings, and below them by its hysteresis (R221). -/
def State.cableHot (s : State) (k : Nat) : Bool :=
  s.a (R.condWarn k) ≤ s.o (R.tCond k) || s.a (R.contactWarn k) ≤ s.o (R.tContact k)
def State.cableCold (s : State) (k : Nat) : Bool :=
  s.o (R.tCond k) ≤ s.a (R.condWarn k) - s.a (R.cableHyst k)
    && s.o (R.tContact k) ≤ s.a (R.contactWarn k) - s.a (R.cableHyst k)

/-- THROTTLE_STEP (R215–R217): at a PFB whose FRAME_NO is a multiple of 1,000.
[DEDUCED, log 31] -/
def execThrottleStep (s : State) : Host.Outcome State Fault Refusal :=
  doesIf (fun s => s.next.val = 0 && s.frame % 1000 = 0 && s.o R.thrFrame != (s.frame : Int))
    (.dyn fun s =>
      let rel := s.a R.throttleReleaseUs
      let die := throttle (s.o R.dieSteps) (decide (10500 ≤ s.o R.dieMax)) (decide (s.o R.dieMax ≤ 10200))
        (s.o R.thrDieNs) s.now rel
      all [ put R.thrFrame s.frame,
            each ((upTo s.nOut).filter fun k => s.a (R.cableEnable k) = 1) fun k =>
              let r := throttle (s.o (R.cableSteps k)) (s.cableHot k) (s.cableCold k) (s.o (R.cabRelNs k)) s.now rel
              all [ put (R.cableSteps k) r.1, put (R.cabRelNs k) r.2,
                    if r.1 = s.o (R.cableSteps k) then .skip else event R.hkEventQueue 0x52 k r.1.toNat,
                    refreshCable k ],
            each ((upTo s.nPm).filter fun m => s.a (R.hsSensor m) != 255) fun m =>
              let t := s.o (R.hsTemp m)
              let w := s.a (R.hsWarn m)
              let r := throttle (s.o (R.hsSteps m)) (decide (w ≤ t)) (decide (t ≤ w - s.a (R.hsHyst m)))
                (s.o (R.hsRelNs m)) s.now rel
              all [ put (R.hsSteps m) r.1, put (R.hsRelNs m) r.2,
                    if r.1 = s.o (R.hsSteps m) then .skip else event R.hkEventQueue 0x52 (64 + m) r.1.toNat ],
            put R.dieSteps die.1, put R.thrDieNs die.2,
            if die.1 = s.o R.dieSteps then .skip else event R.hkEventQueue 0x52 255 die.1.toNat,
            each (upTo s.nPm) derateMod ]) s

/-! ## The cable model (R218–R222) -/

/-- 0.01 °C in 2^-16 °C, and back. -/
def toFine (t : Int) : Int := rne (t * 65536) 100
def toCenti (t : Int) : Int := rne (t * 100) 65536

/-- The inputs of a step that do not come from the model: T_a, T_in, G_F, and whether the inlet is substituted. -/
def State.cableAmb (s : State) (k : Nat) : Int := (s.reading (s.a (R.ambCh k))).getD (s.a (R.ambFixed k))
def State.cableLoop (s : State) (k : Nat) : Option Nat :=
  let l := s.a (R.coolLoop k)
  if 0 ≤ l && l < 8 then some l.toNat else none
def State.cableIn (s : State) (k : Nat) : Int × Bool :=
  match s.cableLoop k with
  | none => (s.cableAmb k, false)
  | some j => match s.reading (s.a (R.inletCh j)) with
    | some t => (t, false)
    | none => (s.a (R.inletFaultT j), true)
def State.cableFlow (s : State) (k : Nat) : Int :=
  match s.cableLoop k with
  | none => 0
  | some j => (s.reading (s.a (R.flowCh j))).getD 0
def State.cableGf (s : State) (k : Nat) : Int :=
  min (rne (s.cableFlow k * s.a (R.coolCp k)) 60) (2500 * s.a (R.cCool k))

/-- The highest valid pin reading, 0.01 °C, and whether a named pin is not valid (R220). -/
def State.pins (s : State) (k : Nat) : Option Int × Bool :=
  let r := [s.a (R.pinCh0 k), s.a (R.pinCh1 k)].filter (· != 255)
  ((r.filterMap s.reading).foldl (fun b t => some (match b with | some x => max x t | none => t)) none,
    r.any fun c => (s.reading c).isNone)

/-- Sub-steps of R219: 100 frames each, the last with the remainder. -/
def cableSub (p ta tin gf : Int) (gcw gcj gja cc cj cw : Int) : Nat → Nat → Int × Int × Int → Int × Int × Int
  | 0, _, t => t
  | fuel + 1, f, (tc, tj, tw) =>
    if f = 0 then (tc, tj, tw)
    else
      let n : Nat := min f 100
      let qc := p * 65536 - gcw * (tc - tw) - gcj * (tc - tj)
      let qj := gcj * (tc - tj) - gja * (tj - ta)
      let qw := gcw * (tc - tw) - gf * (tw - tin)
      cableSub p ta tin gf gcw gcj gja cc cj cw fuel (f - n)
        (tc + rne (qc * n) (1000000 * cc), tj + rne (qj * n) (1000000 * cj), tw + rne (qw * n) (1000000 * cw))

/-- T_COND, T_JACKET, T_COOL as shown, and T_CONTACT given. -/
def cableShow (k : Nat) (contact : Int) : Script :=
  .dyn fun s => all [ put (R.tCond k) (toCenti (s.o (R.cabC k))), put (R.tJacket k) (toCenti (s.o (R.cabJ k))),
    put (R.tCool k) (toCenti (s.o (R.cabW k))), put (R.tContact k) contact ]

/-- The start of a model (R219): every node at the highest of T_a, T_in and the valid pins, CORR 0. -/
def cableStart (k : Nat) : Script :=
  .dyn fun s =>
    let t := max (max (s.cableAmb k) (s.cableIn k).1) ((s.pins k).1.getD (s.cableAmb k))
    all [ put (R.cabC k) (toFine t), put (R.cabJ k) (toFine t), put (R.cabW k) (toFine t), put (R.cableCorr k) 0,
          put (R.cabSum k) 0, put (R.cabN k) 0, put (R.cabFrame k) s.frame, put (R.cabRun k) 1, cableShow k t ]

/-- The cable hot-spot request is set, held or released after a step (R222). -/
def cableTrip (k : Nat) : Script :=
  .dyn fun s =>
    let hit := s.a (R.condTrip k) ≤ s.o (R.tCond k) || s.a (R.contactTrip k) ≤ s.o (R.tContact k)
    let old := s.o (R.hotReq k) = 1
    let new := hit || (old && !s.cableCold k)
    all [ put (R.hotReq k) (ofBool new),
          if new = old then .skip else event R.hkEventQueue 0x53 k (if new then 1 else 0),
          put (R.cableFlags k) (withBit (withBit (s.o (R.cableFlags k)) 1 new) 0 (s.cableHot k)) ]

/-- One step of output k's model (R218–R222).
[DEDUCED, log 31] -/
def cableStep (k : Nat) : Script :=
  .dyn fun s =>
    let f := (s.frame + 4294967296 - (s.o (R.cabFrame k)).toNat) % 4294967296
    let sum := s.o (R.cabSum k)
    let n := pos (s.o (R.cabN k))
    let tc := s.o (R.cabC k)
    let p := rne (sum * s.a (R.condUohm k) * (6553600000 + 393 * (tc - 1310720))) (n * 1000000000 * 6553600000)
    let pk := rne (sum * s.a (R.contactUohm k)) (n * 1000000000)
    let tin := s.cableIn k
    let t := cableSub p (toFine (s.cableAmb k)) (toFine tin.1) (s.cableGf k) (s.a (R.gCw k)) (s.a (R.gCj k)) (s.a (R.gJa k))
      (pos (s.a (R.cCond k))) (pos (s.a (R.cJacket k))) (pos (s.a (R.cCool k))) (f / 100 + 1) f
      (tc, s.o (R.cabJ k), s.o (R.cabW k))
    let tk := toCenti (t.1 + rne (pk * 65536) (pos (s.a (R.gPin k))))
    let (pin, bad) := s.pins k
    let corr := if bad then s.a (R.corrMax k)
      else match pin with
        | some x => clamp 0 (s.a (R.corrMax k)) (s.o (R.cableCorr k) + rne ((x - tk) * s.a (R.corrGain k)) 65536)
        | none => s.o (R.cableCorr k)
    let contact := match pin with | some x => max (tk + corr) x | none => tk + corr
    all [ put (R.cabC k) t.1, put (R.cabJ k) t.2.1, put (R.cabW k) t.2.2, put (R.cableCorr k) corr,
          put (R.cabSum k) 0, put (R.cabN k) 0, put (R.cabFrame k) s.frame,
          put (R.cableFlags k) ((if bad then 16 else 0) + (if tin.2 then 8 else 0) + (if s.cableFlow k ≤ 0 then 4 else 0)
            + (s.o (R.cableFlags k)).toNat % 4),
          cableShow k contact,
          if s.injectsArg (96 + k) 0 then put (R.tCond k) (s.o (R.injValue (96 + k)))
          else if s.injectsArg (96 + k) 1 then put (R.tContact k) (s.o (R.injValue (96 + k))) else .skip,
          cableTrip k ]

/-- The sum that R218 takes in every sample. -/
def cableTrack (k : Nat) : Script :=
  .dyn fun s => onlyIf (s.a (R.cableEnable k) = 1)
    (.seq (put (R.cabSum k) (s.o (R.cabSum k) + s.o (R.iOut k) * s.o (R.iOut k))) (put (R.cabN k) (s.o (R.cabN k) + 1)))

/-! ## Cooling loops (R223, R224) -/

/-- The field switch of a stage, the even one of a pair (R230). -/
def State.stageSwitch (s : State) (j i : Nat) : Option Nat :=
  let f := s.a (R.stageFs j i)
  if 0 ≤ f && f < 32 then some (s.fsGov f.toNat) else none

/-- A stage counts as on: commanded, and its switch reports no fault. -/
def State.stageIsOn (s : State) (j i : Nat) : Bool :=
  match s.stageSwitch j i with
  | none => false
  | some f => bit (s.o (R.stagesOn j)) i && s.o (R.fsFault f) = 0

/-- Change a stage, unless it changed less than STAGE_MIN_US ago. -/
def stageTo (j i : Nat) (on : Bool) (free : Bool) : Script :=
  .dyn fun s =>
    match s.stageSwitch j i with
    | none => .skip
    | some f =>
      let old := bit (s.o (R.stagesOn j)) i
      if old = on || !(free || s.o (R.stNs j i) < 0 || decide (s.a (R.stageMinUs j) ≤ s.usSince (s.o (R.stNs j i)))) then .skip
      else all [ put (R.stagesOn j) (withBit (s.o (R.stagesOn j)) i on), put (R.stNs j i) s.now,
                 if h : f < 32 then (if s.drives then sense (.fsCmd ⟨f, h⟩ on) else .skip) else .skip ]

/-- The outputs of a loop. -/
def State.loopOuts (s : State) (j : Nat) : List Nat := (upTo 24).filter fun k => bit (s.a (R.loopOutputs j)) k
/-- Outside IDLE, ENDED and FAULT. -/
def State.inService (s : State) (k : Nat) : Bool := !(s.os k = osIdle || s.os k = osEnded || s.os k = osFault)

/-- FLOW and FLOW_FAULT (R224). -/
def loopFlowCheck (j : Nat) : Script :=
  .dyn fun s =>
    let named := s.a (R.flowCh j) != 255
    let rd := if s.injects (165 + j) then some (s.o (R.injValue (165 + j))) else s.reading (s.a (R.flowCh j))
    let fl := rd.getD 0
    let low := decide (fl < s.a (R.flowMin j))
    let keep := fun (c : Bool) (r : Key) => if c then (if 0 ≤ s.o r then s.o r else s.now) else -1
    let lowNs := keep low (R.clLowNs j)
    let okNs := keep (!low) (R.clOkNs j)
    let onNs := keep (s.stageIsOn j 0) (R.clOnNs j)
    let old := bit (s.o (R.loopFlags j)) 0
    let set := (named && rd.isNone)
      || (0 ≤ onNs && decide (10000000 ≤ s.usSince onNs) && 0 ≤ lowNs && decide (5000000 ≤ s.usSince lowNs))
    let clear := 0 ≤ okNs && decide (5000000 ≤ s.usSince okNs)
    let new := set || (old && !clear)
    all [ put (R.loopFlow j) fl, put (R.clLowNs j) lowNs, put (R.clOkNs j) okNs, put (R.clOnNs j) onNs,
          put (R.loopFlags j) (ofBool new),
          if new = old then .skip else event R.hkEventQueue 0x54 j (if new then 1 else 0) ]

/-- One loop at the end of a round (R223). -/
def coolStep (j : Nat) : Script :=
  .dyn fun s =>
    if (upTo 4).all fun i => (s.stageSwitch j i).isNone then .skip
    else
      let want := (s.loopOuts j).any fun k => s.inService k || (s.a (R.stageOn j 0) ≤ s.o (R.tCond k) && s.a (R.cableEnable k) = 1)
      let ended := if want then -1 else if s.o (R.clWant j) = 1 then s.now else s.o (R.clEndNs j)
      let run := want || (0 ≤ ended && decide (s.usSince ended < s.a (R.runOnUs j)))
      all [ put (R.clWant j) (ofBool want), put (R.clEndNs j) ended,
            stageTo j 0 run (run && (s.loopOuts j).any s.inService),
            each [1, 2, 3] fun i =>
              match s.reading (s.a (R.returnCh j)) with
              | none => .skip
              | some t =>
                if s.a (R.stageOn j i) ≤ t then stageTo j i true false
                else if t ≤ s.a (R.stageOn j i) - s.a (R.stageHyst j) then stageTo j i false false else .skip,
            loopFlowCheck j ]

/-- FS_OWNER (R228): the loop that names a channel. -/
def fsOwners : Script :=
  .dyn fun s => each (upTo 32) fun f =>
    put (R.fsOwner f)
      (match (upTo 8).find? (fun j => (upTo 4).any fun i => s.stageSwitch j i = some (s.fsGov f)) with
       | some j => j
       | none => 255)

/-! ## The round (R210) -/

/-- HK_ROUND_START (R210): every 100 ms, or when the previous round ends.
[DEDUCED, log 31] -/
def execHkRoundStart (s : State) : Host.Outcome State Fault Refusal :=
  doesIf (fun s => s.o R.hkRuns != 1 && s.island iHK != 0
      && (s.o R.hkStart < 0 || decide (100000 ≤ s.usSince (s.o R.hkStart))))
    (.dyn fun s => all [ put R.hkRuns 1, put R.hkStart s.now, put R.hkFrame s.frame ]) s

/-- HK_ROUND_END (R210): at the first PFB after the last conversion. `ch` lists external channels with the voltage at
the ball in µV, `die` the die sensors in 0.01 °C, `supply` the supply monitors in mV.
[DEDUCED, log 31] -/
def execHkRoundEnd (ch : List (Nat × Int)) (die supply : List Int) (s : State) : Host.Outcome State Fault Refusal :=
  doesIf (fun s => s.o R.hkRuns = 1 && s.next.val = 0 && s.o R.hkFrame != (s.frame : Int))
    (.dyn fun s =>
      let frames := (s.frame + 4294967296 - (s.o R.hkFrame).toNat) % 4294967296
      let td := if s.injects 160 then s.o (R.injValue 160) else (die.take 13).foldl max (die.headD 0)
      all [ put R.hkRuns 0, put R.hkRoundUs (frames * 1000), if 100 < frames then degrade 5 true else .skip,
            each ((upTo 16).zip die) fun x => put (R.dieT x.1) x.2,
            each ((upTo 24).zip supply) fun x => put (R.supply x.1) x.2,
            put R.supplyLow (ofBool (decide (supply.getD 0 750 < 705 + (Config.vcoreFolioOver.val : Int)
              || supply.getD 4 1800 < 1660 + (Config.vio0FolioOver.val : Int)))),
            put R.vfldMv (supply.getD 14 (s.o R.vfldMv)),
            each (ch.filter (·.1 < 64)) fun x => hkTake x.1 x.2,
            if s.drives && !die.isEmpty then sense (.dieMax td td) else .skip,
            each ((upTo s.nOut).filter fun k => s.a (R.cableEnable k) = 1) fun k =>
              .dyn fun s => if s.o (R.cabRun k) = 1 then cableStep k else cableStart k,
            each (upTo 8) coolStep,
            each (upTo s.nPm) headroom ]) s

end Sys2Proof.Machine
end

