-- ==== Sys2Proof/Machine/Battery.lean ====
section
/-!
DEFINITION. Buffer-battery estimation (spec/11_buffer_battery.md R242–R257).
-/

namespace Sys2Proof.Machine

/-! ## Ports and measurements (R242, R243) -/

/-- The module that carries string t. -/
def State.bsCarrier (s : State) (t : Nat) : Option Nat :=
  (upTo s.nPm).find? fun m => s.a (R.batPort m) = 1 && s.a (R.batString m) = (t : Int)

/-- BS_STATE codes. -/
def bsUnassigned : Int := 0
def bsAbsent : Int := 1
def bsSettling : Int := 2
def bsRun : Int := 3
def bsIdFault : Int := 4

/-- The estimator counts on a string (R246: in ID fault too). -/
def State.bsCounts (s : State) (t : Nat) : Bool :=
  s.o (R.bsState t) = bsSettling || s.o (R.bsState t) = bsRun || s.o (R.bsState t) = bsIdFault

/-- C_use in µC (R248). -/
def State.bsC (s : State) (t : Nat) : Int := s.o (R.bsCInUse t) * 3600000

/-- A part of C_use given in 0.01 %. -/
def State.bsPart (s : State) (t : Nat) (p : Int) : Int := s.bsC t * p / 10000

/-- BS_I and BS_V of every sample (R243). -/
def batTrack (t : Nat) : Script :=
  .dyn fun s => match s.bsCarrier t with
    | none => .skip
    | some m => all [ put (R.bsI t) (-(s.modI m)), put (R.bsV t) (s.o (R.vLink m)),
                      put (R.bsISum t) (s.o (R.bsISum t) - s.modI m) ]

/-- The legs of a port's module are held OPEN outside RUN (R242). -/
def bsOpen (t : Nat) : Script :=
  .dyn fun s => match s.bsCarrier t with
    | some m => openModule m
    | none => .skip

/-- BAT_DIS_W and BAT_CHG_W (R253). -/
def batTotals : Script :=
  .dyn fun s => .seq (put R.batDisW (sumOver (upTo 16) fun t => s.o (R.bsDisCapW t)))
    (put R.batChgW (sumOver (upTo 16) fun t => s.o (R.bsChgCapW t)))

/-- Both capabilities are 0, in the sample (R245, R246). -/
def bsNoCap (t : Nat) : Script := all [ put (R.bsDisCapW t) 0, put (R.bsChgCapW t) 0, batTotals ]

/-- An event word of the estimator (R257). -/
def bsEvent (ev t val : Nat) : Script := event R.batEventQueue ev t val

/-- Flag i of BS_FLAGS. -/
def bsFlag (t i : Nat) (on : Bool) : Script := .dyn fun s => put (R.bsFlags t) (withBit (s.o (R.bsFlags t)) i on)

/-- A learn in progress is cancelled (R251), with its cause. -/
def bsUnlearn (t cause : Nat) : Script :=
  .dyn fun s => onlyIf (bit (s.o (R.bsFlags t)) 4) (.seq (bsFlag t 4 false) (bsEvent 0x75 t cause))

/-- BS_SOC and BS_SOC_UNC (R248). -/
def bsShow (t : Nat) : Script :=
  .dyn fun s =>
    let c := pos (s.bsC t)
    all [ put (R.bsSoc t) (rne (s.o (R.bsQ t) * 10000) c), put (R.bsSocUnc t) (cdiv (s.o (R.bsU t) * 10000) c),
          put (R.bsThru t) (s.o (R.bsThruUc t) / 3600000), put (R.bsSinceRestS t) (s.o (R.bsSinceMs t) / 1000),
          put (R.bsLearnQ t) (rne (s.o (R.bsLearnUc t)) 3600000) ]

/-- LOW_CONFIDENCE changes (R257). -/
def bsLow (t : Nat) (on : Bool) : Script :=
  .dyn fun s => onlyIf (bit (s.o (R.bsFlags t)) 2 != on) (.seq (bsFlag t 2 on) (bsEvent 0x76 t (if on then 1 else 0)))

/-! ## Presence (R244–R246) -/

/-- How BS_ID_MODE reads the ball: present, and the code (R244); none in mode 0. -/
def batReading (mode : Int) (mv : Nat) : Option (Bool × Nat) :=
  if mode = 1 then some (decide (mv < 2500 ∧ 100 * (2500 - mv) ≤ 10000 * mv ∧ 10000 * mv ≤ 1000000 * (2500 - mv)), 0)
  else if mode = 2 then
    let c := min 15 (mv * 16 / 2500)
    some (c != 15, c)
  else none

/-- A reading of string t; an injection at point 178 makes it absent (R388). -/
def State.batRead (s : State) (t : Nat) (r : BatRead) : Option (Bool × Nat) :=
  (batReading (s.a (R.bsIdMode t)) r.milliVolt).map fun x => if s.injectsArg 178 t then (false, x.2) else x

/-- A reading as one number: the code of a present string, 255 absent. -/
def batSeen (present : Bool) (code : Nat) : Int := if present then code else 255

/-- BAT_ID_CHANGE (R244): 100 consecutive identical reads of a new state; the active unit stamps it. -/
def execBatIdChange (t : Bs) (r : BatRead) (s : State) : Host.Outcome State Fault Refusal :=
  doesIf (fun s => s.drives && (match s.batRead t r with
      | some (p, c) => batSeen p c != s.o (R.bsSeen t)
      | none => false))
    (.dyn fun s => match s.batRead t r with
      | some (p, c) => sense (.batId t p c)
      | none => .skip) s

/-- Insertion (R245, R256): settling, with the capacity that the code gives.
[DEDUCED, log 61] -/
def bsInsert (t code : Nat) : Script :=
  .dyn fun s =>
    let known := s.a (R.bsIdMode t) = 2 && s.o (R.bsFolCode t) = (code : Int) && s.o (R.bsCLearned t) != 0
    let same := s.a (R.bsIdMode t) = 2 && s.o (R.bsFolCode t) = (code : Int)
    let c := if known then s.o (R.bsCLearned t) else s.a (R.bsCNom t)
    all [ put (R.bsState t) bsSettling, put (R.bsIdCode t) code, put (R.bsPresNs t) s.now,
          put (R.bsCInUse t) c, bsFlag t 5 (!known), put (R.bsNewC t) 0,
          put (R.bsKeep t) (ofBool (same && s.o (R.bsStart t) = 1)), put (R.bsStart t) 0,
          put (R.bsRestNs t) (-1), put (R.bsFullNs t) (-1), put (R.bsEmptyNs t) (-1),
          put (R.bsN t) 1, put (R.bsLast t) (-1), put (R.bsIPrev t) (s.o (R.bsIMean t)),
          bsOpen t, bsNoCap t, bsShow t, bsEvent 0x70 t code ]

/-- Removal (R245). -/
def bsRemove (t : Nat) : Script :=
  .dyn fun s =>
    all [ put (R.bsState t) bsAbsent, put (R.bsIdCode t) (if s.a (R.bsIdMode t) = 2 then 15 else 0), bsOpen t, bsNoCap t,
          bsUnlearn t 2, put (R.bsSwaps t) (s.o (R.bsSwaps t) + 1),
          bsEvent 0x71 t ((s.o (R.bsSwaps t) + 1).toNat % 65536) ]

/-- Entry to ID fault (R246). -/
def bsFault (t : Nat) : Script :=
  all [ put (R.bsState t) bsIdFault, put (R.bsIdCode t) 0, bsOpen t, bsNoCap t, bsUnlearn t 2, bsEvent 0x77 t 0 ]

/-- An identity change takes effect (R244–R246). An unassigned string keeps it for its assignment. -/
def applyBatId (t : Nat) (present : Bool) (code : Nat) : Script :=
  .dyn fun s =>
    .seq (put (R.bsSeen t) (batSeen present code))
      (if s.o (R.bsState t) = bsUnassigned then .skip
       else if !present then (if s.o (R.bsState t) = bsAbsent then .skip else bsRemove t)
       else if s.a (R.bsIdMode t) = 2 && code = 0 then bsFault t
       else bsInsert t code)

/-- Assignment at the PFB (R242, R244): a string that a battery port newly names is inserted where it is present, and
one that none names is unassigned.
[DESIGN CHOICE, log 60] -/
def batAssign (t : Nat) : Script :=
  .dyn fun s => match s.bsCarrier t with
    | none =>
      if s.o (R.bsState t) = bsUnassigned then .skip
      else all [ bsUnlearn t 2, put (R.bsState t) bsUnassigned, bsNoCap t ]
    | some _ =>
      if s.o (R.bsState t) != bsUnassigned then .skip
      else if s.a (R.bsIdMode t) = 0 then bsInsert t 0
      else if s.o (R.bsSeen t) = 255 || s.o (R.bsSeen t) < 0 then put (R.bsState t) bsAbsent
      else if s.a (R.bsIdMode t) = 2 && s.o (R.bsSeen t) = 0 then bsFault t
      else bsInsert t (s.o (R.bsSeen t)).toNat

/-- Every string at a PFB: assignment, the mean of the frame just ended, and the port's legs, which run in RUN where
the string has a share of the set-point. -/
def batPfb : Script :=
  each (upTo 16) fun t =>
    .seq (batAssign t)
      (.dyn fun s => all [ put (R.bsIMean t) (rne (s.o (R.bsISum t)) 500), put (R.bsISum t) 0,
        match s.bsCarrier t with
        | none => .skip
        | some m => if s.o (R.bsState t) = bsRun && s.o (R.bsSetW t) != 0 then each (legs m) closeLeg else openModule m ])

/-! ## The estimator (R247–R253) -/

/-- The charge that the open-circuit table gives (R249), none where the table is all zero. -/
def State.ocvCharge (s : State) (t : Nat) : Option Int :=
  let o := fun i => s.a (R.ocv t i)
  let v := s.o (R.bsV t)
  let c := s.bsC t
  if (upTo 11).all fun i => o i = 0 then none
  else if v ≤ o 0 then some 0
  else match (upTo 10).find? fun i => v ≤ o (i + 1) with
    | none => some c
    | some i => some (rne (c * ((i : Int) * (o (i + 1) - o i) + (v - o i))) (10 * pos (o (i + 1) - o i)))

/-- A new charge with its uncertainty in 0.01 %, after a rest correction or an anchor (R249, R250).
[DEDUCED, log 61] -/
def bsAnchor (t : Nat) (q unc : Int) : Script :=
  .dyn fun s =>
    all [ put (R.bsQ t) q, put (R.bsU t) (min (s.bsPart t unc) (s.bsC t)), put (R.bsThruUc t) 0, put (R.bsSinceMs t) 0,
          bsLow t false, bsFlag t 0 false, bsShow t ]

/-- Whether BS_T lies within a window; not, where its channel is not valid. -/
def State.bsTempIn (s : State) (t : Nat) (lo hi : Int) : Bool :=
  match s.reading (s.a (R.bsTempCh t)) with
  | some x => lo ≤ x && x ≤ hi
  | none => false

/-- The capabilities of string t (R253). -/
def bsCaps (t : Nat) : Script :=
  .dyn fun s =>
    let low := bit (s.o (R.bsFlags t)) 2
    let q := s.o (R.bsQ t)
    let u := if low then s.o (R.bsU t) else 0
    let c := s.bsC t
    let im := match s.bsCarrier t with | some m => s.a (R.modIMax m) | none => 0
    let p := rne (im * s.o (R.bsV t)) 1000000
    let run := s.o (R.bsState t) = bsRun
    .seq
      (put (R.bsDisCapW t)
        (if run && s.a (R.bsSocMin t) * c < (q - u) * 10000 && s.bsTempIn t (s.a (R.bsTDisLo t)) (s.a (R.bsTDisHi t))
         then min (s.a (R.bsPDisMax t)) p else 0))
      (put (R.bsChgCapW t)
        (if run && (q + u) * 10000 < s.a (R.bsSocMax t) * c && s.bsTempIn t (s.a (R.bsTChgLo t)) (s.a (R.bsTChgHi t))
         then min (s.a (R.bsPChgMax t)) p else 0))

/-- A timer of a condition that holds at every update. -/
def holdTimer (r : Key) (c : Bool) : Script :=
  .dyn fun s => put r (if c then (if 0 ≤ s.o r then s.o r else s.now) else -1)

/-- Whether the full and the empty conditions hold now (R250). -/
def State.bsIsFull (s : State) (t : Nat) : Bool :=
  s.a (R.bsVFull t) != 0 && s.a (R.bsIFull t) != 0 && s.a (R.bsVFull t) ≤ s.o (R.bsV t)
    && s.o (R.bsIMean t) < 0 && -(s.o (R.bsIMean t)) ≤ s.a (R.bsIFull t)
def State.bsIsEmpty (s : State) (t : Nat) : Bool :=
  s.a (R.bsVEmpty t) != 0 && s.o (R.bsV t) ≤ s.a (R.bsVEmpty t) && 0 < s.o (R.bsIMean t)

/-- Whether the current is below the rest threshold of R249. -/
def State.bsResting (s : State) (t : Nat) : Bool :=
  decide ((s.o (R.bsIMean t)).natAbs * 200 < (s.o (R.bsCInUse t)).toNat)

/-- What the folio of a string holds (R255), with a capacity that is yet to take effect. -/
def State.bsFolio (s : State) (t : Nat) : List Int :=
  [ if s.o (R.bsNewC t) != 0 then s.o (R.bsNewC t) else s.o (R.bsCLearned t), s.o (R.bsLearnCount t), s.o (R.bsIdCode t),
    s.o (R.bsQ t), s.o (R.bsU t), s.o (R.bsThruUc t), s.o (R.bsSinceMs t), ofBool (bit (s.o (R.bsFlags t)) 2), s.site ]

/-- A save of string t's folio (R255). -/
def bsSave (t : Nat) : Script :=
  .dyn fun s => all [ put (R.bsSaveNs t) s.now, put (R.bsFolCode t) (s.o (R.bsIdCode t)), folioRequest 3 t (s.bsFolio t) [] ]

/-- The counting of R248 over n frames with the mean current i. -/
def bsCount (t : Nat) (n i : Int) : Script :=
  .dyn fun s =>
    let c := s.bsC t
    let dq := i * n
    let a : Int := dq.natAbs
    let u := s.o (R.bsU t) + cdiv (a * s.a (R.bsCcErrPpm t)) 1000000
    let u := if 1 < n then u + ((i - s.o (R.bsIPrev t)).natAbs : Int) * (n - 1) else u
    all [ put (R.bsQ t) (clamp 0 c (s.o (R.bsQ t) - dq)), put (R.bsThruUc t) (s.o (R.bsThruUc t) + a),
          put (R.bsU t) (min u c), put (R.bsIPrev t) i, put (R.bsSinceMs t) (s.o (R.bsSinceMs t) + n),
          if bit (s.o (R.bsFlags t)) 4 then
            .seq (put (R.bsLearnUc t) (s.o (R.bsLearnUc t) + dq))
              (put (R.bsLearnNeg t) (s.o (R.bsLearnNeg t) + (if dq < 0 then -dq else 0)))
          else .skip ]

/-- One update of string t (R248–R254), n frames after the last.
[DEDUCED, log 61] -/
def bsUpdate (t : Nat) (n : Int) : Script :=
  .dyn fun s =>
    let i := s.o (R.bsIMean t)
    let rd := s.reading (s.a (R.bsTempCh t))
    all [ match rd with | some x => put (R.bsT t) x | none => .skip,
          bsFlag t 6 rd.isNone,
          bsCount t n i,
          .dyn fun s => onlyIf (s.bsC t < 50 * s.o (R.bsLearnNeg t)) (bsUnlearn t 1),
          if s.bsTempIn t (s.a (R.bsTDisLo t)) (s.a (R.bsTDisHi t)) then .skip else bsUnlearn t 3,
          holdTimer (R.bsRestNs t) (s.bsResting t), if s.bsResting t then .skip else put (R.bsRestCnt t) 0,
          .dyn fun s => bsFlag t 3 (0 ≤ s.o (R.bsRestNs t) && decide (1800000000 ≤ s.usSince (s.o (R.bsRestNs t)))),
          holdTimer (R.bsFullNs t) (s.bsIsFull t), holdTimer (R.bsEmptyNs t) (s.bsIsEmpty t),
          -- a capacity that was learned at this update takes effect from the next one
          if s.o (R.bsNewC t) = 0 then .skip
          else all [ bsSave t, put (R.bsCInUse t) (s.o (R.bsNewC t)), put (R.bsCLearned t) (s.o (R.bsNewC t)),
                     put (R.bsNewC t) 0 ],
          .dyn fun s =>
            let slow := decide (i.natAbs * 100 < (s.o (R.bsCInUse t)).toNat)
            let nn : Int := if slow then 100 else if bit (s.o R.degradeFlags) 6 then 10 else 1
            all [ put (R.bsN t) nn, put (R.bsRate t) (if slow then 2 else if nn = 10 then 1 else 0), bsFlag t 1 (nn != 1),
                  put (R.bsLast t) s.frame ],
          bsShow t, bsCaps t ]

/-- BATTERY_UPDATE (R247, R248): the estimator runs on the unit that drives, once a frame, and updates every string
whose N frames have passed; `overran` says that the run overran its frame. -/
def execBatteryUpdate (overran : Bool) (s : State) : Host.Outcome State Fault Refusal :=
  doesIf (fun s => s.drives && s.o R.estFrame != (s.frame : Int) && s.o R.apDown != 1)
    (.dyn fun s =>
      let overs := if overran then s.o R.estOver + 1 else 0
      all [ put R.estFrame s.frame, put R.estOver overs,
            if overran then put R.estOverruns (s.o R.estOverruns + 1) else .skip,
            if 10 ≤ overs then degrade 6 true else .skip,
            each (upTo 16) fun t => .dyn fun s =>
              let n : Int := if s.o (R.bsLast t) < 0 then s.o (R.bsN t)
                else ((s.frame + 4294967296 - (s.o (R.bsLast t)).toNat) % 4294967296 : Nat)
              onlyIf (s.bsCounts t && s.o (R.bsN t) ≤ n) (bsUpdate t n),
            .dyn fun s => accept .firmware 0 (.batCaps (sumOver (upTo 16) fun t => s.o (R.bsDisCapW t))
              (sumOver (upTo 16) fun t => s.o (R.bsChgCapW t))) ]) s

/-- The sums take effect in the PL island (R253). -/
def applyBatCaps (dis chg : Int) : Script := .seq (put R.batDisW dis) (put R.batChgW chg)

/-- SETTLING_END (R245): 10 s of presence, and a current below the rest threshold unless the start-up found a matching
code. -/
def execSettlingEnd (t : Bs) (s : State) : Host.Outcome State Fault Refusal :=
  doesIf (fun s => s.drives && s.o (R.bsState t) = bsSettling && decide (10000000 ≤ s.usSince (s.o (R.bsPresNs t)))
      && (s.o (R.bsKeep t) = 1 || s.bsResting t))
    (.dyn fun s =>
      .seq (put (R.bsState t) bsRun)
        (if s.o (R.bsKeep t) = 1 then bsShow t
         else match s.ocvCharge t with
           | some q => all [ put (R.bsQ t) q, put (R.bsU t) (min (s.bsPart t (2 * s.a (R.bsOcvUnc t))) (s.bsC t)), bsShow t ]
           | none => all [ put (R.bsQ t) (s.bsC t / 2), put (R.bsU t) (s.bsC t / 2), bsFlag t 0 true, bsLow t true,
                           bsShow t ])) s

/-- REST_CORRECTION (R249): rest has reached 30 min, or a further 30 min. -/
def execRestCorrection (t : Bs) (s : State) : Host.Outcome State Fault Refusal :=
  doesIf (fun s => s.drives && s.bsCounts t && 0 ≤ s.o (R.bsRestNs t) && s.bsResting t
      && decide (1800000000 * (s.o (R.bsRestCnt t) + 1) ≤ s.usSince (s.o (R.bsRestNs t))))
    (.dyn fun s => match s.ocvCharge t with
      | none => put (R.bsRestCnt t) (s.o (R.bsRestCnt t) + 1)
      | some q => all [ put (R.bsRestCnt t) (s.o (R.bsRestCnt t) + 1), bsAnchor t q (s.a (R.bsOcvUnc t)), bsFlag t 3 true,
                        .dyn fun s => bsEvent 0x72 t (s.o (R.bsSoc t)).toNat ]) s

/-- FULL_ANCHOR (R250, R251): the conditions have held for 60 s; a learn starts. -/
def execFullAnchor (t : Bs) (s : State) : Host.Outcome State Fault Refusal :=
  doesIf (fun s => s.drives && s.bsCounts t && s.bsIsFull t && 0 ≤ s.o (R.bsFullNs t)
      && decide (60000000 ≤ s.usSince (s.o (R.bsFullNs t))))
    (.dyn fun s => all [ bsAnchor t (s.bsC t) (s.a (R.bsEdgeUnc t)), put (R.bsFullNs t) s.now,
      put (R.bsLearnUc t) 0, put (R.bsLearnNeg t) 0, bsFlag t 4 true, bsShow t, bsEvent 0x73 t 1 ]) s

/-- EMPTY_ANCHOR (R250, R251): the conditions have held for 10 s; a learn ends.
[DEDUCED, log 61] -/
def execEmptyAnchor (t : Bs) (s : State) : Host.Outcome State Fault Refusal :=
  doesIf (fun s => s.drives && s.bsCounts t && s.bsIsEmpty t && 0 ≤ s.o (R.bsEmptyNs t)
      && decide (10000000 ≤ s.usSince (s.o (R.bsEmptyNs t))))
    (.dyn fun s =>
      let new := rne (s.o (R.bsLearnUc t)) 3600000
      let nom := s.a (R.bsCNom t)
      all [ bsAnchor t 0 (s.a (R.bsEdgeUnc t)), put (R.bsEmptyNs t) s.now, bsEvent 0x73 t 0,
            if !bit (s.o (R.bsFlags t)) 4 then .skip
            else if nom * 50 ≤ new * 100 && new * 100 ≤ nom * 110 then
              all [ bsFlag t 4 false, bsFlag t 5 false, put (R.bsNewC t) new,
                    put (R.bsLearnCount t) (s.o (R.bsLearnCount t) + 1), bsEvent 0x74 t ((new / 1000).toNat % 65536) ]
            else .seq (bsFlag t 4 false) (bsEvent 0x75 t 5) ]) s

/-- LOW_CONFIDENCE_SET (R252). -/
def execLowConfidenceSet (t : Bs) (s : State) : Host.Outcome State Fault Refusal :=
  doesIf (fun s => s.drives && s.bsCounts t && !bit (s.o (R.bsFlags t)) 2 && 259200000 ≤ s.o (R.bsSinceMs t)) (bsLow t true) s

/-- BATTERY_FOLIO_SAVE (R255): every 60 s. -/
def execBatteryFolioSave (t : Bs) (s : State) : Host.Outcome State Fault Refusal :=
  doesIf (fun s => s.o (R.bsState t) != bsUnassigned && decide (60000000 ≤ s.usSince (s.o (R.bsSaveNs t)))) (bsSave t) s

/-! ## Start-up (R256) -/

/-- The widening for the time off, once site time is known. -/
def bsOffTime (t : Nat) (site : Int) : Script :=
  .dyn fun s => onlyIf (s.o (R.bsOffDue t) = 1)
    (let h := cdiv (max 0 (site - s.o (R.bsSavedT t))) 3600000000000
     all [ put (R.bsOffDue t) 0, put (R.bsU t) (min (s.bsC t) (s.o (R.bsU t) + s.bsPart t (s.a (R.bsOffUnc t)) * h)), bsShow t ])

/-- What a string takes from its folio at step 5. -/
def bsLoad (t : Nat) (lost : Bool) : Script :=
  .dyn fun s =>
    .seq
      (match ((s.folio 3 t).pick) with
       | none => .seq (put (R.bsFolCode t) (-1)) (if (s.folio 3 t).unwritten then .skip else bsFlag t 0 true)
       | some (b, _) =>
         let v := fun i => b.vals.getD i 0
         all [ put (R.bsCLearned t) (v 0), put (R.bsLearnCount t) (v 1), put (R.bsFolCode t) (v 2),
               put (R.bsQ t) (v 3), put (R.bsU t) (v 4), put (R.bsThruUc t) (v 5), put (R.bsSinceMs t) (v 6),
               bsFlag t 2 (v 7 != 0), put (R.bsSavedT t) (v 8), put (R.bsStart t) 1,
               put (R.bsCInUse t) (v 0), put (R.bsOffDue t) (ofBool (!lost)),
               if lost then .dyn fun s => all [ put (R.bsU t) (s.bsC t), bsFlag t 0 true, bsFlag t 2 true ] else .skip ])
      (if s.o (R.bsLearnCut t) = 1 then .seq (put (R.bsLearnCut t) 0) (bsEvent 0x75 t 4) else .skip)

end Sys2Proof.Machine
end

