-- ==== Sys2Proof/Machine/Ecdsa.lean ====
section
/-!
DEFINITION. The elliptic curves of spec/17_vault_and_measured_boot.md R353: points of P-256, P-384 and P-521, and the
verification of an ECDSA P-384 signature (R350, R359, R390).
-/

namespace Sys2Proof.Machine

/-- A curve y² = x³ − 3x + b over the field of p elements, with a base point of order n; `len` bytes a coordinate. -/
structure Curve where
  p : Nat
  b : Nat
  gx : Nat
  gy : Nat
  n : Nat
  len : Nat
deriving DecidableEq, Repr

def p256 : Curve where
  p := 0xFFFFFFFF00000001000000000000000000000000FFFFFFFFFFFFFFFFFFFFFFFF
  b := 0x5AC635D8AA3A93E7B3EBBD55769886BC651D06B0CC53B0F63BCE3C3E27D2604B
  gx := 0x6B17D1F2E12C4247F8BCE6E563A440F277037D812DEB33A0F4A13945D898C296
  gy := 0x4FE342E2FE1A7F9B8EE7EB4A7C0F9E162BCE33576B315ECECBB6406837BF51F5
  n := 0xFFFFFFFF00000000FFFFFFFFFFFFFFFFBCE6FAADA7179E84F3B9CAC2FC632551
  len := 32

def p384 : Curve where
  p := 0xFFFFFFFFFFFFFFFFFFFFFFFFFFFFFFFFFFFFFFFFFFFFFFFFFFFFFFFFFFFFFFFEFFFFFFFF0000000000000000FFFFFFFF
  b := 0xB3312FA7E23EE7E4988E056BE3F82D19181D9C6EFE8141120314088F5013875AC656398D8A2ED19D2A85C8EDD3EC2AEF
  gx := 0xAA87CA22BE8B05378EB1C71EF320AD746E1D3B628BA79B9859F741E082542A385502F25DBF55296C3A545E3872760AB7
  gy := 0x3617DE4A96262C6F5D9E98BF9292DC29F8F41DBD289A147CE9DA3113B5F0B8C00A60B1CE1D7E819D7A431D7C90EA0E5F
  n := 0xFFFFFFFFFFFFFFFFFFFFFFFFFFFFFFFFFFFFFFFFFFFFFFFFC7634D81F4372DDF581A0DB248B0A77AECEC196ACCC52973
  len := 48

def p521 : Curve where
  p := 2 ^ 521 - 1
  b := 0x0051953EB9618E1C9A1F929A21A0B68540EEA2DA725B99B315F3B8B489918EF109E156193951EC7E937B1652C0BD3BB1BF073573DF883D2C34F1EF451FD46B503F00
  gx := 0x00C6858E06B70404E9CD9E3ECB662395B4429C648139053FB521F828AF606B4D3DBAA14B5E77EFE75928FE1DC127A2FFA8DE3348B3C1856A429BF97E7E31C2E5BD66
  gy := 0x011839296A789A3BC0045C8A5FB42C7D1BD998F54449579B446817AFBD17273E662C97EE72995EF42640C550B9013FAD0761353C7086A272C24088BE94769FD16650
  n := 0x1FFFFFFFFFFFFFFFFFFFFFFFFFFFFFFFFFFFFFFFFFFFFFFFFFFFFFFFFFFFFFFFFFA51868783BF2F966B7FCC0148F709A5D03BB5C9B8899C47AEBB6FB71E91386409
  len := 66

/-- x^e mod m, by squaring over `fuel` bits. -/
def powMod (m : Nat) : Nat → Nat → Nat → Nat
  | 0, _, _ => 1 % m
  | fuel + 1, x, e =>
    let h := powMod m fuel (x * x % m) (e / 2)
    if e % 2 = 1 then h * x % m else h

/-- The inverse modulo a prime. -/
def invMod (m x : Nat) : Nat := powMod m 522 (x % m) (m - 2)

/-- A point; `none` is the point at infinity. -/
abbrev Point := Option (Nat × Nat)

/-- Whether a point lies on the curve. -/
def Curve.on (c : Curve) (q : Nat × Nat) : Bool :=
  decide (q.1 < c.p) && decide (q.2 < c.p) && q.2 * q.2 % c.p = (q.1 * q.1 * q.1 + (c.p - 3) * q.1 + c.b) % c.p

/-- The sum of two points. -/
def Curve.add (c : Curve) (u v : Point) : Point :=
  match u, v with
  | none, v => v
  | u, none => u
  | some (x1, y1), some (x2, y2) =>
    if x1 = x2 ∧ (y1 + y2) % c.p = 0 then none
    else
      let l := if x1 = x2 then (3 * x1 * x1 + c.p - 3) * invMod c.p (2 * y1) % c.p
        else (y2 + c.p - y1) * invMod c.p (x2 + c.p - x1) % c.p
      let x := (l * l + 2 * c.p - x1 - x2) % c.p
      some (x, (l * (x1 + c.p - x) + c.p - y1) % c.p)

/-- A multiple of a point, over `fuel` bits. -/
def Curve.mul (c : Curve) : Nat → Nat → Point → Point
  | 0, _, _ => none
  | fuel + 1, k, q =>
    let h := c.mul fuel (k / 2) (c.add q q)
    if k % 2 = 1 then c.add h q else h

/-- The public point of a private scalar. -/
def Curve.pub (c : Curve) (d : Nat) : Point := c.mul 522 d (some (c.gx, c.gy))

/-- A number from bytes, most significant first. -/
def ofBe (l : List Nat) : Nat := l.foldl (fun a b => 256 * a + b % 256) 0

/-- The uncompressed encoding of a point: 04h, then both coordinates, most significant byte first. -/
def Curve.encode (c : Curve) (q : Nat × Nat) : List Nat := 4 :: (beBytes c.len q.1 ++ beBytes c.len q.2)

/-- The point of an uncompressed encoding, if it is one on the curve. -/
def Curve.decode (c : Curve) (l : List Nat) : Option (Nat × Nat) :=
  let q := (ofBe ((l.drop 1).take c.len), ofBe ((l.drop (1 + c.len)).take c.len))
  if l.head? = some 4 && l.length = 1 + 2 * c.len && c.on q then some q else none

/-- Verification of an ECDSA signature on P-384 over a 48-byte hash: r then s, 48 bytes each, big-endian. -/
def ecdsaVerify (pub hash sig : List Nat) : Bool :=
  let r := ofBe (sig.take 48)
  let s := ofBe ((sig.drop 48).take 48)
  match p384.decode pub with
  | none => false
  | some q =>
    if sig.length != 96 || r = 0 || s = 0 || p384.n ≤ r || p384.n ≤ s then false
    else
      let w := invMod p384.n s
      let u1 := ofBe hash * w % p384.n
      let u2 := r * w % p384.n
      match p384.add (p384.mul 384 u1 (some (p384.gx, p384.gy))) (p384.mul 384 u2 (some q)) with
      | none => false
      | some x => x.1 % p384.n = r

end Sys2Proof.Machine
end

