-- ==== Sys2Proof/Machine/Metrology.lean ====
section
/-!
DEFINITION. Billing metrology (spec/08_metrology.md R176–R209) but for the MET commit at a latch boundary: samples and
registers, line cycles, ticks and latching, pulse outputs, supply loss and recovery, the ledger.
-/

namespace Sys2Proof.Machine

/-- K of R185: pW·samples in a mWh. -/
def mwhK : Int := 28800000000000000

/-- Whether the island meters (MT_STATE run or warning). -/
def State.mtRuns (s : State) : Bool := s.o R.mtState = 2 || s.o R.mtState = 3

/-! ## Samples (R179–R187) -/

/-- An input held within its range at the balls (R187), with whether it exceeded it. -/
def ranged (lim u : Int) : Int × Bool := (clamp (-lim) lim u, decide (lim < u.natAbs))

/-- Pulses of an increment `n` of register `r` (0 E_IMP, 1 E_EXP, 2–5 E_Q1–E_Q4) of meter q (R193). -/
def pulseAdd (q r : Nat) (n : Int) : Script :=
  if n = 0 then .skip
  else each (upTo 8) fun j => .dyn fun s =>
    if s.a (R.pulseSrc j) = (q : Int) && s.a (R.pulseReg j) = (r : Int) then
      let acc := s.o (R.puAcc j) + n * s.a (R.pulseConst j)
      let imp := acc / 1000000
      all [ put (R.puAcc j) (acc % 1000000), put (R.pulseBacklog j) (s.o (R.pulseBacklog j) + imp),
            put (R.puCnt j) (s.o (R.puCnt j) + imp),
            .dyn fun s => put (R.pulseOverrange j) (ofBool (decide (10000 < s.o (R.pulseBacklog j)))) ]
    else .skip

/-- Energy `p ≥ 0` into a register and its residue (R185): the increments in mWh go to `also`. -/
def accumulate (reg res : Key) (p : Int) (also : Int → Script) : Script :=
  .dyn fun s =>
    let t := s.o res + p
    let n := t / mwhK
    all [ put res (t % mwhK), if n = 0 then .skip else .seq (put reg (s.o reg + n)) (also n) ]

/-- The routing of one sample's power of meter q (R185). -/
def route (q : Nat) (p : Int) : Script :=
  all [ .dyn fun s => .seq (put (R.mSumP q) (s.o (R.mSumP q) + p)) (put (R.mN q) (s.o (R.mN q) + 1)),
        if 0 < p then accumulate (R.mImp q) (R.mResImp q) p fun n =>
          .seq (.dyn fun s => if q < 24 && s.o (R.dcSessState q) != 0 then put (R.mSessImp q) (s.o (R.mSessImp q) + n) else .skip)
            (pulseAdd q 0 n)
        else if p < 0 then accumulate (R.mExp q) (R.mResExp q) (-p) fun n =>
          .seq (.dyn fun s => if q < 24 && s.o (R.dcSessState q) != 0 then put (R.mSessExp q) (s.o (R.mSessExp q) + n) else .skip)
            (pulseAdd q 1 n)
        else .skip ]

/-- The conversions of a DC meter (R180): i in µA, v in µV, and whether an input was over range. -/
def State.dcConv (s : State) (x : DcSample) : Int × Int × Bool :=
  let ui := ranged 50000000 x.uI
  let uv := ranged 800000000 x.uV
  (rne (ui.1 * 1000000) (pos (s.a (R.shuntNohm x.k))), rne (uv.1 * s.a (R.divRatio x.k)) 1000000, ui.2 || uv.2)

/-- One DC meter's sample counts. -/
def countDc (x : DcSample) : Script :=
  .dyn fun s =>
    let (i, v, ovr) := s.dcConv x
    let p := if (i.natAbs : Int) < s.a (R.dcINom x.k) then 0 else v * i
    all [ if ovr then put (R.mOver x.k) 1 else .skip, route x.k p ]

/-- The currents of a grid point (R181); the coil integrator works in 2^-30 of the input's full scale. -/
def State.gridI (s : State) (g c : Nat) (u : Int) : Int × Int × Int :=
  if s.a (R.sensorType g) = 1 then
    let un := rne (u * 1073741824) 500000000
    let y := rne (s.o (R.gY g c) * 8191) 8192 + rne ((un + s.o (R.gU g c)) * 39269908) 2000000000
    (rne (y * 500000000 * 1000000) (1073741824 * pos (s.a (R.coilSens g))), y, un)
  else (rne (u * s.a (R.iScale g)) 1000, s.o (R.gY g c), s.o (R.gU g c))

/-- Start threshold of a grid point (R185), µA: 0.1 % of the current at full scale, 500 mV at the balls. -/
def State.gridThresh (s : State) (g : Nat) : Int :=
  if s.a (R.sensorType g) = 1 then 500000000000 / pos (s.a (R.coilSens g)) else 500 * s.a (R.iScale g)

/-- One grid point's sample counts, and joins the line-cycle buffer as six values. -/
def gridValues (s : State) (x : GridSample) : List Int × List Int × List (Int × Int) × Bool :=
  let g := x.g.val
  let v := (upTo 3).map fun p => ranged 800000000 (x.uV.getD p 0)
  let i := (upTo 4).map fun c => ranged 500000000 (x.uI.getD c 0)
  let cv := (upTo 4).map fun c => s.gridI g c (i.getD c (0, false)).1
  (v.map fun y => rne (y.1 * s.a (R.vScale g)) 1000000, cv.map (·.1), cv.map (·.2),
    v.any (·.2) || i.any (·.2))

def countGrid (x : GridSample) : Script :=
  .dyn fun s =>
    let g := x.g.val
    let (v, i, st, ovr) := gridValues s x
    let th := s.gridThresh g
    let pr := (upTo 3).map fun p => v.getD p 0 * i.getD p 0
    let eff := (upTo 3).map fun p => if ((i.getD p 0).natAbs : Int) < th then 0 else pr.getD p 0
    all [ if ovr then put (R.mOver (24 + g)) 1 else .skip,
          each (upTo 4) fun c => all [ put (R.gY g c) (st.getD c (0, 0)).1, put (R.gU g c) (st.getD c (0, 0)).2,
            .dyn fun s => put (R.gI2 g c) (s.o (R.gI2 g c) + i.getD c 0 * i.getD c 0) ],
          each (upTo 3) fun p => .dyn fun s =>
            .seq (put (R.gV2 g p) (s.o (R.gV2 g p) + v.getD p 0 * v.getD p 0))
              (put (R.gPs g p) (s.o (R.gPs g p) + pr.getD p 0)),
          put (R.mI (24 + g) 0) ((i.take 3).foldl (fun b y => max b (y.natAbs : Int)) 0),
          route (24 + g) (sumOver eff id) ]

/-! ## Line cycles (R184, R186) -/

/-- A quarter wave of the sine in Q1.31: round(sin(2πk/256) × 2^31), k = 0 to 64; 1.0 is the format's largest. -/
def sinTable : List Int :=
  [0, 52701887, 105372028, 157978697, 210490206, 262874923, 315101295, 367137861, 418953276, 470516330, 521795963,
   572761285, 623381598, 673626408, 723465451, 772868706, 821806413, 870249095, 918167572, 965532978, 1012316784,
   1058490808, 1104027237, 1148898640, 1193077991, 1236538675, 1279254516, 1321199781, 1362349204, 1402678000,
   1442161874, 1480777044, 1518500250, 1555308768, 1591180426, 1626093616, 1660027308, 1692961062, 1724875040,
   1755750017, 1785567396, 1814309216, 1841958164, 1868497586, 1893911494, 1918184581, 1941302225, 1963250501,
   1984016189, 2003586779, 2021950484, 2039096241, 2055013723, 2069693342, 2083126254, 2095304370, 2106220352,
   2115867626, 2124240380, 2131333572, 2137142927, 2141664948, 2144896910, 2146836866, 2147483647]

/-- sin(2πk/256) in Q1.31. -/
def sinQ (k : Nat) : Int :=
  let r := k % 256
  if r ≤ 64 then sinTable.getD r 0
  else if r ≤ 128 then sinTable.getD (128 - r) 0
  else if r ≤ 192 then -(sinTable.getD (r - 128) 0)
  else -(sinTable.getD (256 - r) 0)

/-- Harmonic h of 256 points: Σ x·cos and −Σ x·sin with Q1.31 factors. -/
def harmonic (x : List Int) (h : Nat) : Int × Int :=
  ((upTo 256).zip x).foldl (fun a y => (a.1 + y.2 * sinQ (h * y.1 + 64), a.2 - y.2 * sinQ (h * y.1))) (0, 0)

/-- Linear interpolation of a channel at a time, both in 2^-32 samples from the buffer's first sample. -/
def resample (ch : List Int) (t1 t2 : Int) : List Int :=
  (upTo 256).map fun (j : Nat) =>
    let t := t1 + rne ((t2 - t1) * (j : Int)) 256
    let i := (t / 4294967296).toNat
    let a := ch.getD i 0
    a + rne ((ch.getD (i + 1) a - a) * (t % 4294967296)) 4294967296

/-- THD in 0.01 % from a cycle's points; none where the fundamental is 0.
[DEDUCED, log 30] -/
def thd (x : List Int) : Option Int :=
  let m := fun h => (harmonic x h).1 * (harmonic x h).1 + (harmonic x h).2 * (harmonic x h).2
  let f := m 1
  if f = 0 then none
  else some (isqrt (100000000 * sumOver ((upTo 49).map (· + 2)) m / f))

/-- One line cycle of grid point g, between two tick crossings (R184, R186). `t1`, `t2` count from the buffer's first
sample. -/
def lineCycle (g : Nat) (t1 t2 : Int) : Script :=
  .dyn fun s =>
    let chan := fun c => resample (s.d.mtBuf.map fun row => row.getD (6 * g + c) 0) t1 t2
    let pq := (upTo 3).map fun p =>
      let v := harmonic (chan p) 1
      let i := harmonic (chan (3 + p)) 1
      let k : Int := 32768 * 4611686018427387904
      (rne (v.1 * i.1 + v.2 * i.2) k, rne (v.2 * i.1 - v.1 * i.2) k)
    let p1 := sumOver pq (·.1)
    let q1 := sumOver pq (·.2)
    let q := 24 + g
    let e := fun (x : Int) => rne (x.natAbs * (t2 - t1)) 4294967296
    let quad := if p1 < 0 then (if q1 < 0 then 2 else 1) else (if q1 < 0 then 3 else 0)
    all [ put (R.gCyc g) (s.o (R.gCyc g) + 1),
          put (R.gFreq g) (s.o (R.gFreq g) + rne (8000000 * 4294967296) (t2 - t1)),
          each (upTo 3) fun p => all [
            put (R.gP1 g p) (s.o (R.gP1 g p) + (pq.getD p (0, 0)).1),
            put (R.gQ1 g p) (s.o (R.gQ1 g p) + (pq.getD p (0, 0)).2),
            match thd (chan p) with
              | some x => .seq (put (R.gThdV g p) (s.o (R.gThdV g p) + x)) (put (R.gThdN g p) (s.o (R.gThdN g p) + 1))
              | none => .skip,
            match thd (chan (3 + p)) with
              | some x => .seq (put (R.gThdI g p) (s.o (R.gThdI g p) + x))
                            (put (R.gThdN g (3 + p)) (s.o (R.gThdN g (3 + p)) + 1))
              | none => .skip ],
          if 0 < p1 then accumulate (R.mFImp q) (R.mFResImp q) (e p1) fun _ => .skip
          else if p1 < 0 then accumulate (R.mFExp q) (R.mFResExp q) (e p1) fun _ => .skip else .skip,
          if p1 = 0 && q1 = 0 then .skip
          else accumulate (R.mQ q quad) (R.mQRes q quad) (e q1) fun n => pulseAdd q (2 + quad) n ]

/-! ## Sessions in the ledger (R203) -/

/-- A session, snapshot or stop request at the first MT sample that begins. -/
def ledgerTake (x : Nat × Nat × Nat) : Script :=
  .dyn fun s =>
    let k := x.2.1
    if 26 ≤ k then .skip
    else if x.1 = 1 then
      all [ put (R.mSessImp k) 0, put (R.mSessExp k) 0, put (R.mSessOver k) (s.o (R.mOver k)),
            put (R.mSessCtx k) (s.o (R.meterContext k)), put (R.mSessId k) (s.o (R.sessionId k)),
            put (R.mSessNo k) (s.o (R.sessionNo k)),
            writeEntry 1 k 0 0 0 0 x.2.2,
            .dyn fun s' =>
              let seq := s'.o R.ledgerSeq
              let got := decide (s.o R.ledgerSeq < seq)
              let nb := !got || bit (s'.o (R.dcStatus k)) 7
              all [ put (R.dcSessStartSeq k) (if got then seq else 0), put (R.mSessNb k) (ofBool nb),
                    put (R.dcSessState k) (if nb then 3 else 1) ],
            refreshMeters ]
    else if x.1 = 2 then
      if s.o (R.dcSessState k) = 0 then .skip
      else
        let fl := (if s.o (R.mSessNb k) = 1 || bit (s.o (R.dcStatus k)) 7 then 128 else 0)
          ||| (if s.o (R.dcSessState k) = 2 then 64 else 0)
          ||| (if s.o (R.mSessOver k) = 1 || s.o (R.mOver k) = 1 then 4 else 0)
        all [ if s.o (R.dcSessStartSeq k) = 0 then .skip
              else writeEntry 2 k fl (s.o (R.mSessImp k)).toNat (s.o (R.mSessExp k)).toNat
                (s.o (R.dcSessStartSeq k)).toNat x.2.2,
              put (R.dcSessState k) 0, put (R.dcSessStartSeq k) 0, put (R.mSessId k) 0, put (R.mSessCtx k) 0,
              refreshMeters ]
    else
      let g := k - 24
      .seq (writeEntry 8 k 0 (if k < 24 then 0 else (s.o (R.mFImp k)).toNat)
          (if k < 24 then 0 else (s.o (R.mFExp k)).toNat) 0 s.frame)
        (if g < 2 || k < 24 then refreshMeters else .skip)

/-! ## Crossings and ticks (R188–R190) -/

/-- A tick (R189, R190): every LATCH_N-th one makes a latch boundary due. -/
def tick : Script :=
  .dyn fun s =>
    let n := s.o R.mtTickN + 1
    all [ put R.mtLastTick (s.o R.mtNo),
          if s.a R.latchN ≤ n then .seq (put R.mtTickN 0) (put R.mtLatchDue 1) else put R.mtTickN n ]

/-- Detection of a crossing at the arriving sample, whose channel value is `v` µV (R188). -/
def detect (v : Int) : Script :=
  .dyn fun s =>
    let nom := s.a (R.gridVNom ((s.a R.zcSource).toNat / 3))
    let prev := s.o R.zcPrev
    let low := v < 0 && 800 * nom * nom < v * v
    if s.o R.zcArmed = 1 && 0 ≤ v then
      let t := (s.o R.mtNo - 1) * 4294967296 + (if prev < v then rne (-prev * 4294967296) (v - prev) else 0)
      let per := t - s.o R.zcDet
      let counts := 0 ≤ s.o R.zcDet && 1538 * 8 * 4294967296 ≤ per * 100 && per * 100 ≤ 2222 * 8 * 4294967296
      all [ put R.zcArmed 0, put R.zcPrev v, put R.zcDet t,
            if counts then put R.zcPend 1 else .seq (put R.zcRun 0) (put R.zcTick (-1)) ]
    else .seq (put R.zcPrev v) (if low then put R.zcArmed 1 else .skip)

/-- The rows of the cycle buffer that may still be needed: a cycle of at most 22.22 ms, and its ends. -/
def trimBuf (l : List (List Int)) : List (List Int) := l.drop (l.length - 360)

/-- MT_SAMPLE (R179–R187): the sample before counts; what waited for a sample takes its registers; the new sample's
crossing is detected. The sample at a latch boundary thus belongs to the next interval (R190). Inputs that the lists
do not name read 0 V.
[DESIGN CHOICE, log 5, DEDUCED, log 28] -/
def execMtSample (dc : List DcSample) (grid : List GridSample) (s : State) : Host.Outcome State Fault Refusal :=
  doesIf (fun s => s.mtRuns)
    (.dyn fun s => all [
      match s.d.mtPend with
        | none => .skip
        | some (d, g) => .seq (each (d.filter fun x => decide (x.k.val < s.nOut)) countDc) (each g countGrid),
      refreshMeters,
      .dyn fun s => .seq (upd fun d => { d with ledgerReq := [] }) (each s.d.ledgerReq ledgerTake),
      put R.mtNo (s.o R.mtNo + 1), put R.mtInstN (s.o R.mtInstN + 1),
      upd fun d => { d with
        mtPend := some (dc, grid)
        metOld := ⟨d.metSnap.shadow, d.metOld.reqs ++ d.metSnap.reqs⟩
        metSnap := ⟨s.shadow, d.reqs.filter (· = 267)⟩
        reqs := d.reqs.filter (· != 267) },
      each (upTo s.nOut) fun k => .dyn fun s =>
        let x := match dc.find? (·.k.val = k) with | some x => s.dcConv x | none => (0, 0, false)
        all [ put (R.mI k 1) (s.o (R.mI k 0)), put (R.mI k 0) x.1, put (R.mV k 1) (s.o (R.mV k 0)), put (R.mV k 0) x.2.1 ],
      .dyn fun s =>
        let row := (upTo 2).flatMap fun g =>
          match grid.find? (·.g.val = g) with
          | some x => (gridValues s x).1 ++ (gridValues s x).2.1.take 3
          | none => [0, 0, 0, 0, 0, 0]
        let z := (s.a R.zcSource).toNat
        .seq (upd fun d => { d with mtBuf := trimBuf (d.mtBuf ++ [row]) })
          (detect (row.getD (6 * (z / 3) + z % 3) 0)) ]) s

/-- MAINS_CROSSING (R188, R189): a counted crossing is a tick and closes the line cycle that the last one began; while
NO_MAINS is set, the fourth consecutive one brings mains ticks back. -/
def execMainsCrossing (s : State) : Host.Outcome State Fault Refusal :=
  doesIf (fun s => s.mtRuns && s.o R.zcPend = 1)
    (.dyn fun s =>
      let base := (s.o R.mtNo - s.d.mtBuf.length + 1) * 4294967296
      let t1 := s.o R.zcTick
      let back := s.o R.mtNoMains = 1
      let run := s.o R.zcRun + 1
      all [ put R.zcPend 0, put R.zcCounted (s.o R.mtNo), put R.zcTick (s.o R.zcDet),
            if base ≤ t1 && 0 ≤ t1 && !back then
              each (upTo 2) fun g => lineCycle g (t1 - base) (s.o R.zcDet - base)
            else .skip,
            if back then
              if 4 ≤ run then all [ put R.zcRun 0, put R.mtNoMains 0, put R.tickSource 0, refreshMeters, tick ]
              else put R.zcRun run
            else tick ]) s

/-- ZC_TIMEOUT (R189): no counted crossing for ZC_TIMEOUT_US; internal ticks begin with one now. -/
def execZcTimeout (s : State) : Host.Outcome State Fault Refusal :=
  doesIf (fun s => s.mtRuns && s.o R.mtNoMains != 1
      && decide (s.a R.zcTimeoutUs ≤ 125 * (s.o R.mtNo - max 0 (s.o R.zcCounted))))
    (all [ put R.mtNoMains 1, put R.tickSource 1, put R.zcRun 0, put R.zcTick (-1), refreshMeters, tick ]) s

/-- INTERNAL_TICK (R189): 160 MT samples after the last tick. -/
def execInternalTick (s : State) : Host.Outcome State Fault Refusal :=
  doesIf (fun s => s.mtRuns && s.o R.tickSource = 1 && 160 ≤ s.o R.mtNo - s.o R.mtLastTick) tick s

/-! ## Latching (R182, R184, R190, R191) -/

/-- A mean over `n` cycles; over none, the spec states no value. -/
def mean (w : Nat) (sum n den : Int) (f : Int → Script) : Script :=
  if n = 0 then draw w fun x => f x else f (rne sum (n * den))

/-- What a grid point reports for the interval that ends (R184). -/
def latchGrid (g : Nat) : Script :=
  .dyn fun s =>
    let n := s.o (R.mN (24 + g))
    let cyc := s.o (R.gCyc g)
    let rms := fun (x : Int) => if n = 0 then 0 else rne (isqrt (x / n)) 1000
    let pw := fun (x : Int) => if n = 0 then 0 else rne x (n * 1000000000000)
    let va := fun p => rne (rms (s.o (R.gV2 g p)) * rms (s.o (R.gI2 g p))) 1000000
    let st := sumOver (upTo 3) va
    let pt := pw (s.o (R.mSumP (24 + g)))
    all [
      each (upTo 3) fun p => all [
        put (R.phVRms (4 * g + p)) (rms (s.o (R.gV2 g p))), put (R.phP (4 * g + p)) (pw (s.o (R.gPs g p))),
        put (R.phS (4 * g + p)) (va p),
        mean 32 (s.o (R.gQ1 g p)) cyc 1000000000000 fun x => put (R.phQ1 (4 * g + p)) x,
        mean 16 (s.o (R.gThdV g p)) (s.o (R.gThdN g p)) 1 fun x => put (R.phThdV (4 * g + p)) x,
        mean 16 (s.o (R.gThdI g p)) (s.o (R.gThdN g (3 + p))) 1 fun x => put (R.phThdI (4 * g + p)) x ],
      each (upTo 4) fun c => put (R.phIRms (4 * g + c)) (rms (s.o (R.gI2 g c))),
      put (R.gpPTot g) pt, put (R.gpSTot g) st,
      mean 32 (sumOver (upTo 3) fun p => s.o (R.gP1 g p)) cyc 1000000000000 fun x => put (R.gpPFund g) x,
      mean 32 (sumOver (upTo 3) fun p => s.o (R.gQ1 g p)) cyc 1000000000000 fun x => put (R.gpQFund g) x,
      .dyn fun s => put (R.gpNTot g) (sign (s.o (R.gpQFund g)) * isqrt (st * st - pt * pt)),
      if st = 0 then draw 16 fun x => put (R.gpPf g) x else put (R.gpPf g) (rne (pt * 10000) st),
      if s.o R.mtNoMains = 1 then put (R.gpFreq g) 0
      else mean 32 (s.o (R.gFreq g)) cyc 1 fun x => put (R.gpFreq g) x,
      put (R.gpEImp g) (s.o (R.mImp (24 + g))), put (R.gpEExp g) (s.o (R.mExp (24 + g))),
      put (R.gpEImpFund g) (s.o (R.mFImp (24 + g))), put (R.gpEExpFund g) (s.o (R.mFExp (24 + g))),
      each (upTo 4) fun j => put (R.gpEQ g j) (s.o (R.mQ (24 + g) j)),
      each (upTo 3) fun p => all [ put (R.gV2 g p) 0, put (R.gPs g p) 0, put (R.gP1 g p) 0, put (R.gQ1 g p) 0,
        put (R.gThdV g p) 0, put (R.gThdI g p) 0 ],
      each (upTo 4) fun c => put (R.gI2 g c) 0,
      each (upTo 6) fun c => put (R.gThdN g c) 0,
      put (R.gCyc g) 0, put (R.gFreq g) 0, put (R.mSumP (24 + g)) 0, put (R.mN (24 + g)) 0 ]

/-- What a DC meter latches. -/
def latchDc (k : Nat) : Script :=
  .dyn fun s =>
    let n := s.o (R.mN k)
    all [ put (R.dcPInt k) (if n = 0 then 0 else rne (s.o (R.mSumP k)) (n * 1000000000000)),
          put (R.dcEImp k) (s.o (R.mImp k)), put (R.dcEExp k) (s.o (R.mExp k)),
          put (R.dcSessImp k) (s.o (R.mSessImp k)), put (R.dcSessExp k) (s.o (R.mSessExp k)),
          if s.o (R.mOver k) = 1 then put (R.mSessOver k) 1 else .skip,
          put (R.mSumP k) 0, put (R.mN k) 0 ]

/-- Whether two references differ by more than 300 ppm (R182). -/
def apart (a b : Int) : Bool := 300 * (max a b : Int).natAbs < 1000000 * (a - b).natAbs

/-- The comparison of the references at a boundary (R182). -/
def compareRefs (r : List Int) : Script :=
  .dyn fun s =>
    let ref := fun i => if s.injectsArg 164 i then rne (r.getD i 0 * (1000000 + s.o (R.injValue 164))) 1000000 else r.getD i 0
    let d := fun i j => apart (ref i) (ref j)
    let odd := fun i => d i ((i + 1) % 3) && d i ((i + 2) % 3)
    let agree := !d 0 1 && !d 1 2 && !d 0 2
    all [ each (upTo 3) fun i => put (R.driftN i) (if odd i then s.o (R.driftN i) + 1 else 0),
          put R.driftFrame (if agree then (if 0 ≤ s.o R.driftFrame then s.o R.driftFrame else s.frame) else -1),
          .dyn fun s =>
            let all3 := d 0 1 && d 1 2 && d 0 2
            let m := (upTo 3).foldl (fun a i => if 3 ≤ s.o (R.driftN i) || all3 then withBit a i true else a)
              (s.o R.vrefDrift)
            all [ put R.vrefDrift m, if m = 0 then .skip else degrade 7 true ] ]

/-- The widths of the pulse outputs for the interval that begins, from the one that ended (R194).
[DEDUCED, log 29] -/
def pulseWidths (samples : Int) : Script :=
  each (upTo 8) fun j => .dyn fun s =>
    let c := s.o (R.puCnt j)
    let w := s.a (R.pulseWidthUs j)
    .seq (put (R.puW j) (if 2 * c * w * 8000 ≤ samples * 1000000 then w
        else max 100 (samples * 125 / (2 * c) / 100 * 100)))
      (put (R.puCnt j) 0)

/-- What a latch boundary does (R190); `commit` is what it does about the MET group, which governs the interval that
begins.
[DEDUCED, log 28] -/
def latchNow (refs : List Int) (commit : Script) : Script :=
  .dyn fun s =>
    let n := s.o R.mtNo - s.o R.mtLatchNo
    all [ put R.mtLatchDue 0, put R.latchSeq ((s.o R.latchSeq + 1) % 4294967296), put R.latchTime s.site,
          put R.intervalUs (125 * n), put R.mtLatchNo (s.o R.mtNo),
          each (upTo s.nOut) latchDc, each (upTo 2) latchGrid,
          .dyn fun s =>
            let w := sumOver (upTo 2) fun g => s.o (R.gpPTot g)
            .seq (put R.gridImportW w) (if s.drives then sense (.gridImport w) else .skip),
          compareRefs refs, commit, pulseWidths n,
          each s.meters fun q => put (R.mOver q) 0, refreshMeters ]

/-- INST_READING (R192): the mean of the last two samples of every DC meter, as stamped inputs of the unit that
drives. -/
def execInstReading (s : State) : Host.Outcome State Fault Refusal :=
  doesIf (fun s => s.mtRuns && 2 ≤ s.o R.mtInstN)
    (.dyn fun s => .seq (put R.mtInstN 0)
      (if s.drives then
        each (upTo s.nOut) fun k =>
          if h : k < 24 then
            sense (.inst ⟨k, h⟩ (rne (s.o (R.mI k 0) + s.o (R.mI k 1)) 2000) (rne (s.o (R.mV k 0) + s.o (R.mV k 1)) 2000))
          else .skip
       else .skip)) s

/-! ## Pulse outputs (R194, R195) -/

/-- PULSE_START (R194): a backlog, and the ball low for at least the width in force. -/
def execPulseStart (j : Fin 8) (s : State) : Host.Outcome State Fault Refusal :=
  doesIf (fun s => s.o (R.puHigh j) != 1 && 1 ≤ s.o (R.pulseBacklog j)
      && (s.o (R.puNs j) < 0 || decide (s.o (R.puW j) ≤ s.usSince (s.o (R.puNs j)))))
    (.dyn fun s => all [ put (R.puHigh j) 1, put (R.puNs j) s.now ]) s

/-- PULSE_END (R194, R195): after the width the ball falls and the backlog is one less. -/
def execPulseEnd (j : Fin 8) (s : State) : Host.Outcome State Fault Refusal :=
  doesIf (fun s => s.o (R.puHigh j) = 1 && decide (s.o (R.puW j) ≤ s.usSince (s.o (R.puNs j))))
    (.dyn fun s => all [ put (R.puHigh j) 0, put (R.puNs j) s.now,
      put (R.pulseBacklog j) (s.o (R.pulseBacklog j) - 1), put (R.pulseCount j) (s.o (R.pulseCount j) + 1),
      put (R.pulseOverrange j) (ofBool (decide (10000 < s.o (R.pulseBacklog j) - 1))) ]) s

/-! ## Supply loss and recovery (R196–R201) -/

/-- Every register, residue and accumulator that a totals folio holds, in one order. -/
def mtKeys : List Key :=
  ((upTo 26).flatMap fun q =>
    [R.mImp q, R.mExp q, R.mResImp q, R.mResExp q, R.mFImp q, R.mFExp q, R.mFResImp q, R.mFResExp q]
      ++ (upTo 4).flatMap (fun j => [R.mQ q j, R.mQRes q j])
      ++ [R.mSessImp q, R.mSessExp q, R.mSessOver q, R.mSessNb q, R.mSessCtx q, R.mSessId q, R.mSessNo q])
    ++ (upTo 24).flatMap (fun k => [R.dcSessState k, R.dcSessStartSeq k])
    ++ (upTo 8).flatMap (fun j => [R.puAcc j, R.pulseBacklog j, R.pulseCount j])
    ++ [R.ledgerSeq, R.mtFull]

/-- The totals as they stand. -/
def State.mtTake (s : State) : MtSave :=
  ⟨mtKeys.map s.o, s.aoTicks, s.o R.mtNo,
    (upTo 26).map fun q => if q < 24 then s.o (R.dcIInst q) else s.o (R.mI q 0), []⟩

/-- A totals save (R197); at a warning it stores waiting entry bodies as well. -/
def totalsSave (withBodies : Bool) : Script :=
  .dyn fun s => all [
    upd fun d => { d with mtTotals := some { s.mtTake with unsigned := if withBodies then d.ledgerDue else [] } },
    upd fun d => { d with mtClose := none },
    put R.mtSaveNs s.now, put R.lastSaveTime s.site ]

/-- EARLY_WARNING (R196, R197): a source that PFW_MODE names acts. -/
def execEarlyWarning (pfwIn vmetLow : Bool) (s : State) : Host.Outcome State Fault Refusal :=
  doesIf (fun s => s.o R.mtState = 2 &&
      ((pfwIn && s.a R.pfwMode != 1) || (vmetLow && s.a R.pfwMode != 2)))
    (all [ put R.mtState 3, bump R.warnCount, totalsSave true ]) s

/-- WARNING_END (R196). -/
def execWarningEnd (s : State) : Host.Outcome State Fault Refusal :=
  doesIf (fun s => s.o R.mtState = 3) (put R.mtState 2) s

/-- PERIODIC_TOTALS_SAVE (R197): every 60 s. -/
def execPeriodicTotalsSave (s : State) : Host.Outcome State Fault Refusal :=
  doesIf (fun s => s.mtRuns && decide (60000000 ≤ s.usSince (s.o R.mtSaveNs))) (totalsSave false) s

/-- The island stops: what the cut or the die's reset loses, until its recovery (R66, R198). -/
def mtDown : Script :=
  all [ upd fun d => { d with mtPend := none, mtBuf := [] },
        put R.mtState 1, put R.zcArmed 0, put R.zcPend 0, put R.zcDet (-1), put R.zcTick (-1), put R.zcCounted (-1),
        put R.mtTickN 0, put R.mtLatchDue 0,
        each (upTo 26) fun q => all [ put (R.mSumP q) 0, put (R.mN q) 0, put (R.mOver q) 0 ],
        refreshMeters ]

/-- VMET_CUT (R198): the close record is complete before the die resets. -/
def execVmetCut (s : State) : Host.Outcome State Fault Refusal :=
  doesIf (fun s => s.mtRuns)
    (.dyn fun s => .seq (upd fun d => { d with mtClose := some s.mtTake }) mtDown) s

/-- The unsaved interval of meter q (R200). -/
def unsaved (q : Nat) (sv : MtSave) (closed : Bool) : Script :=
  .dyn fun s =>
    let th := if q < 24 then cdiv (s.a (R.dcINom q)) 1000 else s.gridThresh (q - 24)
    let gap := s.aoTicks - sv.ticks
    let bound := cdiv (s.pMaxW q * gap * 1000) (32768 * 3600)
    let lost := s.o R.aoPowerLost = 1
    if closed && ((sv.iInst.getD q 0).natAbs : Int) < th then .skip
    else writeEntry 3 q (if lost then 32 else 0) (if lost then 2 ^ 64 - 1 else bound.toNat)
      (if lost then 2 ^ 64 - 1 else gap.toNat)
      (if q < 24 && s.o (R.dcSessState q) != 0 then (s.o (R.dcSessStartSeq q)).toNat else 0) s.frame

/-- KEY_ID of the metrology key (R204): the first 8 bytes of SHA-384 of PUBKEY, held as stored. -/
def keyIdOf (pub : Int) : Int := ofLe ((sha384 (leBytes 97 pub.toNat)).take 8)

/-- MT_RECOVERY (R177, R199–R201): the totals and the close record, entries that waited, unsaved intervals, open
sessions, the firmware audit; then metering resumes. -/
def mtRecover : Script :=
  .dyn fun s =>
    match s.d.mtTotals with
    | none => all [ put R.mtState 4, put R.mtWhole 0, refreshMeters ]
    | some t =>
      let sv := match s.d.mtClose with | some c => c | none => t
      let closed := s.d.mtClose.isSome
      let whole := s.o R.mtWhole = 1
      all [
        each (mtKeys.zip sv.vals) fun x => put x.1 x.2,
        upd fun d => { d with ledgerDue :=
          (t.unsigned.filter fun e => !(d.ledger.any fun y => y.1 = e.seq)).map fun e => { e with flags := e.flags ||| 1 } },
        .dyn fun s =>
          let top := (s.d.ledgerDue.map (·.seq) ++ s.d.ledger.map (·.1)).foldl max (s.o R.ledgerSeq).toNat
          put R.ledgerSeq top,
        each s.meters fun q => unsaved q sv closed,
        each (upTo s.nOut) fun k => .dyn fun s =>
          if s.o (R.dcSessState k) = 0 then .skip
          else if whole then .seq (put (R.dcSessState k) 2) (ledgerTake (2, k, s.frame))
          else put (R.dcSessState k) 2,
        .dyn fun s =>
          if s.o R.fwStored = s.o R.fwDigest then .skip
          else all [ put R.fwAudit (s.o R.fwAudit + 1), put R.fwStored (s.o R.fwDigest),
                     writeEntry 5 255 0 (s.o R.fwVerOld).toNat (s.o R.metrologyFw).toNat 0 s.frame,
                     put R.fwVerOld (s.o R.metrologyFw) ],
        put R.mtState 2, put R.mtWhole 0, put R.mtLatchNo (s.o R.mtNo), put R.mtSaveNs s.now,
        each (upTo s.nOut) latchDc, refreshMeters,
        upd fun d => { d with mtClose := none } ]

/-- MT_RECOVERY as a command: the island is recovering. -/
def execMtRecovery (s : State) : Host.Outcome State Fault Refusal :=
  doesIf (fun s => s.o R.mtState = 1 && s.island iMT != 4 && s.island iMT != 5)
    (.seq mtRecover (.dyn fun s => put (R.islandState iMT) (if s.o R.mtState = 2 then 2 else 5))) s

/-! ## The ledger's commands (R205–R207) -/

/-- LEDGER_ENTRY_SIGNED (R205): the oldest waiting entry is signed and stored; the signature is the key's, which
nothing in the spec fixes. Without a key the signature bytes are zero (R208).
[DEDUCED, log 28] -/
def execLedgerEntrySigned (s : State) : Host.Outcome State Fault Refusal :=
  doesIf (fun s => !s.d.ledgerDue.isEmpty)
    (.dyn fun s =>
      match s.d.ledgerDue with
      | [] => .skip
      | e :: rest =>
        let store := fun (sig : Nat) => all [
          upd fun d => { d with ledgerDue := rest,
                                ledger := (d.ledger.filter fun x => e.seq < x.1 + 896) ++
                                  [(e.seq, ofLe (slotBytes (s.o R.serial).toNat (s.o R.keyId).toNat e (leBytes 96 sig)))] },
          refreshLedger ]
        if e.flags.testBit 1 then store 0 else draw 768 store) s

/-- What a write to LEDGER_READ does when it takes effect (R207). -/
def applyLedgerRead (seq : Int) : Script :=
  .dyn fun s => all [ put R.ledgerRead seq,
    put R.ledgerEntry (match s.d.ledger.find? fun x => (x.1 : Int) = seq with | some x => x.2 | none => 0) ]

/-- What a write to LEDGER_ACK does (R207). -/
def applyLedgerAck (seq : Int) : Script :=
  all [ put R.ledgerAck seq, refreshLedger, refreshMeters ]

/-- What a write to SNAPSHOT_REQ does (R203). -/
def applySnapshotReq (m : Int) : Script := ledgerRequest 8 m.toNat

/-- What a write to DRIFT_CLEAR does (R182). -/
def applyDriftClear : Script := put R.driftReq 1

/-- At a PFB: drift flags clear once the references have agreed for 1,000 frames and DRIFT_CLEAR was written (R182). -/
def driftPfb : Script :=
  .dyn fun s =>
    onlyIf (s.o R.vrefDrift != 0 && s.o R.driftReq = 1 && 0 ≤ s.o R.driftFrame
        && decide (1000 ≤ ((s.frame : Int) - s.o R.driftFrame) % 4294967296))
      (all [ put R.vrefDrift 0, put R.driftReq 0, degrade 7 false, refreshMeters ])

end Sys2Proof.Machine
end

