-- ==== Sys2Proof/Machine/Vault.lean ====
section
/-!
DEFINITION. The key vault, measured boot and the life cycle (spec/17_vault_and_measured_boot.md R348–R361): registers,
images and their judgement, slots and blobs, updates, transitions and tamper. Writes reach these operations at their
stamp, through Access.lean.
-/

namespace Sys2Proof.Machine

/-! ## Measurement registers (R348) -/

/-- An extension of a register's value. -/
def extended (v : Int) (d : List Nat) : Int := ofLe (sha384 (leBytes 48 v.toNat ++ d))

/-- Extend MEAS_i. -/
def extend (i : Nat) (d : List Nat) : Script := .dyn fun s => put (R.meas i) (extended (s.o (R.meas i)) d)

/-- What an object is bound to: SHA-384 of the registers of its mask (R351). -/
def bindOf (meas : Nat → Int) (mask : Nat) : Int :=
  ofLe (sha384 (((upTo 8).filter mask.testBit).flatMap fun i => leBytes 48 (meas i).toNat))

/-- The registers as they stand. -/
def State.measNow (s : State) : Nat → Int := fun i => s.o (R.meas i)

/-! ## Images (R349, R350) -/

/-- Byte i of an image. -/
def Image.byte (x : Image) (i : Nat) : Nat :=
  match x.chunks.find? (·.1 = i / 4096) with
  | some c => c.2 / 256 ^ (i % 4096) % 256
  | none => 255

/-- Bytes of an image. -/
def Image.bytes (x : Image) (off len : Nat) : List Nat := (upTo len).map fun i => x.byte (off + i)

/-- A U32 field of the header. -/
def Image.u32 (x : Image) (off : Nat) : Nat := ofLe (x.bytes off 4)

/-- IMAGE_VER, SVN and METRO_VER; the shipped image's are those of 1000h.05, 0 and 1000h.06. -/
def Image.ver (x : Image) : Nat := if x.factory then 0x05020000 else x.u32 4
def Image.svn (x : Image) : Nat := if x.factory then 0 else x.u32 8
def Image.metro (x : Image) : Nat := if x.factory then 0x02000000 else x.u32 12

/-- Digest of component c. -/
def Image.digest (x : Image) (c : Nat) : List Nat :=
  if x.factory then leBytes 48 (Config.factoryDigest c).toNat else x.bytes (24 + 56 * c + 8) 48

/-- Whether an image passes, but for a trial's count (R350); the shipped image's signature and digests are right. -/
def Image.passes (x : Image) (rollback : Nat) (fwKey : List Nat) (owner : Option (List Nat)) : Bool :=
  if x.factory then decide (rollback ≤ 0) && fwKey = leBytes 97 (Config.factoryBlob 0).toNat
  else
    let comp := fun c => (x.u32 (24 + 56 * c), x.u32 (28 + 56 * c))
    x.u32 0 = 0x4F444D49 && ecdsaVerify fwKey (sha384 (x.bytes 0 304)) (x.bytes 304 96) && decide (rollback ≤ x.svn)
      && ((upTo 5).all fun c => sha384 (x.bytes (comp c).1 (comp c).2) = x.digest c)
      && (match owner with
        | none => true
        | some k => decide (96 ≤ (comp 4).2) &&
            ecdsaVerify k (sha384 (x.bytes (comp 4).1 ((comp 4).2 - 96))) (x.bytes ((comp 4).1 + (comp 4).2 - 96) 96))

/-- The owner anchor, if one is installed. -/
def State.ownerKey (s : State) : Option (List Nat) :=
  if s.o (R.blobState 3) = 1 then some (leBytes 97 (s.o (R.blobPub 3)).toNat) else none

/-- A firmware-verification key by its register: 0 stands for the one that Thokofa made. -/
def fwKeyNat (v : Int) : Nat := if v = 0 then (Config.factoryBlob 0).toNat else v.toNat

/-- The firmware-verification key in force (R357). -/
def State.fwKeyBytes (s : State) : List Nat := leBytes 97 (fwKeyNat (s.o R.fwKey))

/-- The new key that an image carries in component 0 (R357). -/
def Image.newKey (x : Image) : Option Nat :=
  if x.factory then none else (Config.imageKey (x.bytes (x.u32 24) (x.u32 28))).map (·.toNat)

/-- The judgement of an image on this unit: under the key in force, or, for the image that brought that key, under the one
before it (R350, R357; assumption log 65). -/
def State.judges (s : State) (x : Image) : Bool :=
  x.passes (s.o R.rollbackCtr).toNat s.fwKeyBytes s.ownerKey
    || (x.newKey = some (s.o R.fwKey).toNat
        && x.passes (s.o R.rollbackCtr).toNat (leBytes 97 (fwKeyNat (s.o R.fwKeyOld))) s.ownerKey)

/-! ## Keys (R353–R356) -/

/-- The public part of a key, zero-padded, as the octets read. -/
def pubOf (keyType key : Nat) : Int :=
  let ec := fun (c : Curve) => match c.pub key with | some q => (ofLe (c.encode q) : Int) | none => 0
  match keyType with
  | 1 => ec p256
  | 2 => ec p384
  | 3 => ec p521
  | 4 => (Config.ed448Pub key).toNat
  | 8 => key
  | _ => 0

/-- Operations that a key type can perform, as a mask of OPS (R353). -/
def opsOf (keyType : Nat) : Nat :=
  match keyType with
  | 1 => 0x13 | 2 => 0x13 | 3 => 0x13 | 4 => 0x03 | 5 => 0x0C | 6 => 0x0C | 7 => 0x30 | 8 => 0x02
  | _ => 0

/-- Whether an attribute word may be given to a key of a type (R353). -/
def attrOk (attr keyType : Nat) : Bool :=
  attr / 2 ^ 21 % 8 = 0 && attr.testBit 8 && attr % 64 &&& opsOf keyType = attr % 64 && 1 ≤ keyType && keyType ≤ 8

/-- A fresh key of a type, from the entropy source: a free value within its range. -/
def freshKey (keyType : Nat) (f : Nat → Script) : Script :=
  let scalar := fun (c : Curve) => draw (8 * c.len + 64) fun x => f (1 + x % (c.n - 1))
  match keyType with
  | 1 => scalar p256
  | 2 => scalar p384
  | 3 => scalar p521
  | 4 => draw 456 f
  | 5 => draw 128 f
  | 6 => draw 256 f
  | 7 => draw 384 f
  | _ => draw 1064 f

/-- The first bytes of the latched DATA. -/
def State.vrBytes (s : State) : List Nat := (leBytes 2048 (s.o R.vrData).toNat).take (s.o R.vrLen).toNat

/-! ### Subject public key of a certificate -/

/-- The element at the head of DER bytes: its tag, its content and what follows. -/
def derHead (l : List Nat) : Option (Nat × List Nat × List Nat) :=
  match l with
  | t :: n :: rest =>
    if n < 128 then some (t, rest.take n, rest.drop n)
    else
      let k := n - 128
      let len := ofBe (rest.take k)
      some (t, (rest.drop k).take len, rest.drop (k + len))
  | _ => none

/-- The bytes after n elements. -/
def derSkip : Nat → List Nat → List Nat
  | 0, l => l
  | n + 1, l => match derHead l with | some (_, _, r) => derSkip n r | none => []

/-- The subject public key of an X.509 certificate: the bit string of its SubjectPublicKeyInfo. -/
def certKey (cert : List Nat) : Option (List Nat) := do
  let (_, c, _) ← derHead cert
  let (_, tbs, _) ← derHead c
  let body := if tbs.head? = some 0xA0 then derSkip 1 tbs else tbs
  let (_, spki, _) ← derHead (derSkip 5 body)
  let (_, key, _) ← derHead (derSkip 1 spki)
  pure (key.drop 1)

/-- Whether a certificate carries a stage's public key. -/
def certFits (cert : List Nat) (pub : Int) : Bool :=
  match certKey cert with
  | some k => k.length ≤ 133 && decide ((ofLe k : Int) = pub)
  | none => false

/-! ### The folio of an object (R351, R352) -/

/-- The region of the running image's copies. -/
def State.vaultRegion (s : State) : Nat := if s.o R.bootImage = 2 then 6 else 5

/-- MEAS_MASK of a blob (R357). -/
def blobMask (b : Nat) : Nat :=
  match b with | 1 => 0x69 | 2 => 0x63 | 4 => 0x21 | _ => 0

/-- What a slot's folio holds: attribute word, type, key, public key, certificate, and the registers it is bound to. -/
def slotRecord (attr type key pub cert bound : Int) : List Int := [attr, type, key, pub, cert, bound]

/-- The stage of slot n as its folio holds it. -/
def State.stageRecord (s : State) (n : Nat) : List Int :=
  slotRecord (s.o (R.vsStAttr n)) (s.o (R.vsStType n)) (s.o (R.vsStKey n)) (s.o (R.stagePub n)) (s.o (R.vsStCert n))
    (bindOf s.measNow ((s.o (R.vsStAttr n)).toNat / 256 % 256))

/-- A blob's folio: key, public key and the registers it is bound to. -/
def State.blobRecord (s : State) (b : Nat) (key pub : Int) : List Int := [key, pub, bindOf s.measNow (blobMask b)]

/-- A slot without a stage. -/
def clearStage (n : Nat) : Script :=
  all [ put (R.stageState n) 0, put (R.stagePub n) 0, put (R.vsStKey n) 0, put (R.vsStAttr n) 0, put (R.vsStType n) 0,
        put (R.vsStCert n) 0 ]

/-- A slot with nothing in it. -/
def clearSlot (n : Nat) : Script :=
  all [ put (R.slotAttr n) 0, put (R.slotType n) 0, put (R.slotPub n) 0, put (R.slotCert n) 0, put (R.slotState n) 0,
        put (R.vsKey n) 0 ]

/-- A slot takes a record; it is unavailable where its registers differ (R352). -/
def loadSlot (n : Nat) (r : List Int) : Script :=
  .dyn fun s =>
    let attr := (r.getD 0 0).toNat
    let opens := s.o R.dusGone != 1 && r.getD 5 0 = bindOf s.measNow (attr / 256 % 256)
    all [ put (R.slotAttr n) ((attr ||| 2 ^ 31 : Nat) : Int), put (R.slotType n) (r.getD 1 0),
          put (R.slotPub n) (r.getD 3 0), put (R.slotCert n) (r.getD 4 0),
          put (R.vsKey n) (if opens then r.getD 2 0 else 0), put (R.slotState n) (if opens then 1 else 2) ]

/-- BLOB_KEY_ID of a public part. -/
def blobId (pub : Int) : Int := keyIdOf pub

/-- A blob takes a record. -/
def loadBlob (b : Nat) (r : List Int) : Script :=
  .dyn fun s =>
    let opens := s.o R.dusGone != 1 && r.getD 2 0 = bindOf s.measNow (blobMask b)
    all [ put (R.vbKey b) (if opens then r.getD 0 0 else 0), put (R.blobPub b) (r.getD 1 0),
          put (R.blobKeyId b) (if r.getD 1 0 = 0 then 0 else blobId (r.getD 1 0)),
          put (R.blobState b) (if opens then 1 else 2) ]

/-- The metrology island has its key, or has none (R208). -/
def showMetrologyKey : Script :=
  .dyn fun s =>
    let have_ := s.o (R.blobState 1) = 1
    all [ put R.keyState (if have_ then 0 else 1), put R.pubkey (s.o (R.blobPub 1)), put R.keyId (s.o (R.blobKeyId 1)),
          refreshMeters ]

/-! ## The commands (R354, R357) -/

/-- Whether VERIFY_STAGE, SWAP and DISCARD act on a blob, and the stage's state. -/
def State.stageOf (s : State) (n : Nat) : Int :=
  if s.o R.vaultBlob = 1 then (if n < 16 then s.o (R.blobStage n) else 0) else s.o (R.stageState n)

/-- Whether IMPORT data opens, and to what. -/
def State.importNow (s : State) (cls : Nat) (data : List Nat) : Option Nat :=
  Config.importOpens (s.o R.serial).toNat cls (s.o R.vaultSlot).toNat (s.o R.vaultAttr).toNat (s.o R.vaultKeyType).toNat data

/-- Why a write to CMD is refused (R354–R357, R360): R49's code and detail.
[DEDUCED, log 65] -/
def State.vaultRefusal (s : State) (cmd : Nat) : Option (Nat × Nat) :=
  let n := (s.o R.vaultSlot).toNat
  let data := (leBytes 2048 (s.o R.vaultData).toNat).take (s.o R.vaultLen).toNat
  let bad : Option (Nat × Nat) := some (0x22, 0)
  if cmd = 0 || 10 < cmd then bad
  else if s.lc = 0 || s.lc = 5 || (s.lc = 3 && 9 ≤ cmd) then some (0x20, 4)
  else if s.o R.vaultState != 1 || s.o R.vaultRun != 0 || s.d.stamps.any (fun x => match x.inp with
      | .write _ k _ => k = R.vaultCmd | _ => false) then some (4, 1)
  else match cmd with
    | 1 => if attrOk (s.o R.vaultAttr).toNat (s.o R.vaultKeyType).toNat then none else bad
    | 2 => if attrOk (s.o R.vaultAttr).toNat (s.o R.vaultKeyType).toNat && (s.importNow 0 data).isSome then none else bad
    | 3 => if s.stageOf n = 0 then bad else none
    | 4 => if s.o (R.stageState n) != 0 && certFits data (s.o (R.stagePub n)) then none else bad
    | 5 => if s.stageOf n = 3 then none else bad
    | 9 => if n = 1 then none else bad
    | 10 => if n = 2 && (s.importNow 1 data).isSome then none else bad
    | _ => none

/-- A command starts at its stamp: its operands are latched; SWAP asks for its folio (R356). -/
def applyVaultCmd (cmd : Nat) : Script :=
  .dyn fun s =>
    let n := (s.o R.vaultSlot).toNat
    all [ put R.vaultRun cmd, put R.vrSlot n, put R.vrAttr (s.o R.vaultAttr), put R.vrType (s.o R.vaultKeyType),
          put R.vrLen (s.o R.vaultLen), put R.vrData (s.o R.vaultData), put R.vaultPhase 0, put R.vaultResult 0,
          if cmd = 1 || cmd = 2 then put R.vaultBlob 0 else if cmd = 9 || cmd = 10 then put R.vaultBlob 1 else .skip,
          if cmd != 5 then .skip
          else if s.o R.vaultBlob = 1 then
            folioRequest s.vaultRegion (256 + n) (s.blobRecord n (s.o (R.vbStKey n)) (s.o (R.vbStPub n))) []
          else if bit (s.o (R.vsStAttr n)) 30 then folioRequest s.vaultRegion n (s.stageRecord n) []
          else put R.vaultPhase 1 ]

/-- A fill of a stage. -/
def fillStage (n : Nat) (key : Nat) : Script :=
  .dyn fun s =>
    let t := (s.o R.vrType).toNat
    all [ clearStage n, put (R.vsStKey n) key, put (R.vsStAttr n) (s.o R.vrAttr), put (R.vsStType n) t,
          put (R.stagePub n) (pubOf t key), put (R.stageState n) 2 ]

/-- A fill of a blob's stage; the metrology key is P-384, the pair-link key AES-256. -/
def fillBlob (b key : Nat) : Script :=
  all [ put (R.vbStKey b) key, put (R.vbStPub b) (if b = 1 then pubOf 2 key else 0), put (R.blobStage b) 2 ]

/-- VERIFY_STAGE: an asymmetric key verifies its own signature. -/
def State.stageVerifies (s : State) (n : Nat) : Bool :=
  if s.o R.vaultBlob = 1 then n = 1 || Config.stageCheck (s.o (R.vbStKey n)).toNat (s.vrBytes.take 32)
  else
    let t := s.o (R.vsStType n)
    if t ≤ 4 || t = 8 then true else Config.stageCheck (s.o (R.vsStKey n)).toNat (s.vrBytes.take 32)

/-- What a command has done when it completes, and its RESULT.
[DEDUCED, log 65] -/
def vaultEffect (cmd n : Nat) : Script :=
  .dyn fun s =>
    let done : Script := put R.vaultResult 1
    let data := s.vrBytes
    let opened := fun cls => Config.importOpens (s.o R.serial).toNat cls n (s.o R.vrAttr).toNat (s.o R.vrType).toNat data
    match cmd with
    | 1 => freshKey (s.o R.vrType).toNat fun k => .seq (fillStage n k) done
    | 2 => match opened 0 with
      | some k => .seq (fillStage n k) done
      | none => put R.vaultResult 3
    | 3 =>
      if s.stageVerifies n then .seq (if s.o R.vaultBlob = 1 then put (R.blobStage n) 3 else put (R.stageState n) 3) done
      else put R.vaultResult 2
    | 4 => .seq (put (R.vsStCert n) (ofLe data)) done
    | 5 => put R.vaultResult (if s.o R.vaultPhase = 2 then 1 else if s.o R.vaultPhase = 4 then 4 else 2)
    | 6 => .seq (if s.o R.vaultBlob = 1 then all [ put (R.blobStage n) 0, put (R.vbStKey n) 0, put (R.vbStPub n) 0 ]
        else clearStage n) done
    | 7 => all [ if bit (s.o (R.slotAttr n)) 30 then folioRequest s.vaultRegion n [] [] else .skip, clearSlot n, done ]
    | 8 => .seq (extend 7 (leBytes 48 (s.o R.vrData).toNat)) done
    | 9 => freshKey 2 fun k => .seq (fillBlob n k) done
    | 10 => match opened 1 with
      | some k => .seq (fillBlob n k) done
      | none => put R.vaultResult 3
    | _ => .skip

/-- VAULT_COMMAND_DONE (R354): the running command completes; SWAP only once its boundary has come or its folio has
failed. -/
def execVaultCommandDone (s : State) : Host.Outcome State Fault Refusal :=
  doesIf (fun s => s.o R.vaultRun != 0 && (s.o R.vaultRun != 5 || 2 ≤ s.o R.vaultPhase))
    (.dyn fun s => .seq (vaultEffect (s.o R.vaultRun).toNat (s.o R.vrSlot).toNat) (put R.vaultRun 0)) s

/-- The swap of a verified stage at its boundary (R356): a PFB, or the latch boundary for blob 1 (R357). -/
def vaultSwap (latch : Bool) : Script :=
  .dyn fun s =>
    let n := (s.o R.vrSlot).toNat
    let onBlob := s.o R.vaultBlob = 1
    if !(s.o R.vaultRun = 5 && s.o R.vaultPhase = 1 && latch = (onBlob && n = 1)) then .skip
    else if onBlob then
      all [ if latch then all [ put R.keyIdOld (s.o R.keyId) ] else .skip,
            loadBlob n (s.blobRecord n (s.o (R.vbStKey n)) (s.o (R.vbStPub n))),
            put (R.blobStage n) 0, put (R.vbStKey n) 0, put (R.vbStPub n) 0, put R.vaultPhase 2,
            if latch then
              .seq showMetrologyKey (.dyn fun s => writeEntry 6 255 0 (s.o R.keyIdOld).toNat (s.o R.keyId).toNat 0 s.frame)
            else .skip ]
    else
      all [ loadSlot n (s.stageRecord n), put (R.swapFrame n) s.frame, clearStage n, put R.vaultPhase 2 ]

/-- MEAS7_EXTEND takes effect (R348). -/
def applyMeas7 (v : Int) : Script := extend 7 (leBytes 48 v.toNat)

/-- OWNER_ANCHOR takes effect (R357): blob 3 is installed and kept. -/
def applyOwnerAnchor (v : Int) : Script :=
  .dyn fun s =>
    let r := [0, v, bindOf s.measNow 0]
    all [ putA R.ownerAnchor v, loadBlob 3 r, folioRequest 5 259 r [], folioRequest 6 259 r [] ]

/-! ## Updates (R358) -/

/-- Why a write to UPD_CMD is refused. -/
def State.updRefusal (s : State) (cmd : Nat) : Option (Nat × Nat) :=
  let st := (s.o R.updState).toNat
  let seq : Bool := match cmd with
    | 1 => decide (st ≤ 1)
    | 2 => st = 1
    | 3 => st = 2
    | 4 => st = 3
    | 5 => st = 5 && s.o R.startPhase = 9
    | _ => decide (1 ≤ st) && decide (st ≤ 4)
  if cmd = 0 || 6 < cmd then some (0x22, 0)
  else if s.lc = 0 || s.lc = 5 then some (0x20, 4)
  else if !((upTo s.nOut).all fun k => s.os k = osIdle || s.os k = osEnded) then some (0x20, 7)
  else if seq then none else some (5, 0)

/-- The registers that a new image will give (R358). -/
def State.measNext (s : State) (x : Image) : Nat → Int := fun i =>
  if i ≤ 4 then extended 0 (x.digest i)
  else if i = 6 then extended (extended 0 (sha384 s.fwKeyBytes)) (leBytes 4 x.svn)
  else s.o (R.meas i)

/-- A record bound to other registers. -/
def rebind (blob : Option Nat) (meas : Nat → Int) (r : List Int) : List Int :=
  match blob with
  | none => r.take 5 ++ [bindOf meas ((r.getD 0 0).toNat / 256 % 256)]
  | some b => r.take 2 ++ [bindOf meas (blobMask b)]

/-- The folios of a region that hold an object. -/
def State.wrapped (s : State) (r : Nat) : List (Nat × List Int) :=
  (upTo 272).filterMap fun f => match (s.folio r f).pick with
    | some (b, _) => if b.vals.isEmpty then none else some (f, b.vals)
    | none => none

/-- Versions of both images; 0 where one fails. -/
def showImages : Script :=
  .dyn fun s => .seq (put R.imageAVer (if s.judges s.d.imgA then s.d.imgA.ver else 0))
    (put R.imageBVer (if s.judges s.d.imgB then s.d.imgB.ver else 0))

/-- UPD_CMD takes effect.
[DEDUCED, log 65] -/
def applyUpdCmd (cmd : Nat) : Script :=
  .dyn fun s =>
    match cmd with
    | 1 =>
      .seq (if s.o R.bootImage = 1 && s.d.imgA != s.d.imgB then
          .seq (upd fun d => { d with imgB := d.imgA }) (each (s.wrapped 5) fun x => folioRequest 6 x.1 x.2 [])
        else .skip) (.seq (put R.updState 1) showImages)
    | 2 => if s.judges s.d.imgA then .seq (put R.updState 2) showImages else .skip
    | 3 =>
      .seq (each (s.wrapped s.vaultRegion) fun x =>
          let opens := if x.1 < 256 then s.o (R.slotState x.1) = 1 else s.o (R.blobState (x.1 - 256)) = 1
          if opens then folioRequest 5 x.1 (rebind (if x.1 < 256 then none else some (x.1 - 256)) (s.measNext s.d.imgA) x.2) []
          else .skip)
        (put R.updState 3)
    | 4 => all [ put R.imgTrial 1, put R.trialBoots 0, put R.updState 4 ]
    | 5 => all [ put R.rollbackCtr (s.o R.imageSvn), put R.imgTrial 0, put R.updState 0,
                 match s.d.imgA.newKey with
                 | some k => .seq (put R.fwKeyOld (s.o R.fwKey)) (put R.fwKey k)
                 | none => .skip ]
    | _ => all [ put R.imgTrial 0, put R.updState 0, showImages ]

/-- A chunk takes effect: it goes to image A, which is no longer the one the unit was shipped with. -/
def applyUpdData (v : Int) : Script :=
  .dyn fun s =>
    let c := (s.o R.updOffset).toNat / 4096
    upd fun d => { d with imgA := ⟨false, upsert (·.1 = c) (c, v.toNat) (if d.imgA.factory then [] else d.imgA.chunks)⟩ }

/-! ## Start (R348, R350, R352) -/

/-- Start-up step 2: the image started, 0 where both fail; BOOT_IMAGE 2 and START_FAIL 1 for image B (R74). -/
def bootStart : Script :=
  .dyn fun s =>
    let trial := s.o R.imgTrial = 1
    let boots := if trial then s.o R.trialBoots + 1 else s.o R.trialBoots
    let a := s.judges s.d.imgA && !(trial && 3 ≤ boots)
    let b := s.judges s.d.imgB
    let img := if a then s.d.imgA else s.d.imgB
    all [ put R.trialBoots boots, put R.bootImage (if a then 1 else if b then 2 else 0),
          if a then .skip else put R.startFail (if b then 1 else 2),
          put R.vaultRun 0, put R.lcNs (-1), put R.vaultBlob 0,
          each (upTo 8) fun i => put (R.meas i) 0,
          if !(a || b) then .skip
          else all [
            each (upTo 5) fun c => extend c (img.digest c),
            extend 5 [0], extend 6 (sha384 s.fwKeyBytes), extend 6 (leBytes 4 img.svn),
            put R.residentFw img.ver, put R.metrologyFw img.metro, put R.imageSvn img.svn,
            put R.fwDigest (ofLe (img.digest 3)),
            put R.updState (if a && trial then 5 else 0),
            put R.debugState (if s.lc ≤ 1 then 1 else 0),
            showImages,
            each [0, 4, 5] fun x => .dyn fun s =>
              let pub : Int := if x = 0 then fwKeyNat (s.o R.fwKey) else (Config.factoryBlob x).toNat
              loadBlob x [0, pub, bindOf s.measNow (blobMask x)],
            put R.importPub (Config.factoryBlob 4).toNat,
            .dyn fun s => each (upTo 256) fun n => .seq (.seq (clearSlot n) (clearStage n))
              (match (s.folio s.vaultRegion n).pick with
                | some (bk, _) => if bk.vals.isEmpty then .skip else loadSlot n bk.vals
                | none => .skip),
            .dyn fun s => each [1, 2, 3] fun x =>
              match (s.folio s.vaultRegion (256 + x)).pick with
              | some (bk, _) => loadBlob x bk.vals
              | none => put (R.blobState x) 0,
            put R.vaultState (if s.o R.dusGone = 1 then 2 else 1) ] ]

/-! ## Life cycle (R359–R361) -/

/-- Every slot and blob erased (R359: RETIRED). -/
def eraseVault : Script :=
  all [ each (upTo 256) fun n => .seq (clearSlot n) (clearStage n),
        each (upTo 16) fun b => all [ put (R.blobState b) 0, put (R.blobPub b) 0, put (R.blobKeyId b) 0, put (R.blobStage b) 0,
          put (R.vbKey b) 0, put (R.vbStKey b) 0, put (R.vbStPub b) 0 ],
        upd fun d => { d with folios := d.folios.filter fun f => f.region != 5 && f.region != 6,
                              folioJobs := d.folioJobs.filter fun j => j.region != 5 && j.region != 6 },
        put R.vaultRun 0, showMetrologyKey ]

/-- A life-cycle state is entered: the debug port stands as R360 says; RETIRED erases the vault. -/
def enterLc (goal : Int) : Script :=
  all [ put R.lcState goal, put R.debugState (if goal ≤ 1 then 1 else 0), if goal = 5 then eraseVault else .skip, refreshMeters ]

/-- LC_TARGET takes effect: a fresh nonce, for 60 s and one use. -/
def applyLcTarget (goal : Int) : Script :=
  draw 256 fun x => .dyn fun s => all [ put R.lcChallenge x, put R.lcTo goal, put R.lcNs s.now ]

/-- Whether R359 has a transition, and whether its token comes from the Thokofa anchor. -/
def lcAnchor (frm goal : Int) : Option Bool :=
  if (frm = 0 && goal = 1) || (frm = 1 && goal = 2) || (frm = 1 && goal = 5) then some true
  else if (frm = 2 && goal = 3) || (frm = 3 && goal = 4) || (frm = 4 && goal = 3)
    || (goal = 5 && (frm = 2 || frm = 3 || frm = 4)) || (goal = 128 && (frm = 2 || frm = 4)) then some false
  else none

/-- ASCII of a text. -/
def ascii (t : String) : List Nat := t.toList.map (·.toNat)

/-- Whether a token is the right anchor's over what R359 names. -/
def State.lcTokenOk (s : State) (token : Int) : Bool :=
  let frm := s.lc
  let goal := s.o R.lcTo
  let msg := ascii "ODXLC" ++ leBytes 16 (s.o R.serial).toNat ++ [frm.toNat, goal.toNat] ++ leBytes 32 (s.o R.lcChallenge).toNat
  0 ≤ s.o R.lcNs && decide (s.now - s.o R.lcNs ≤ 60000000000) &&
    (match lcAnchor frm goal with
      | none => false
      | some thokofa =>
        let b := if thokofa then 5 else 3
        s.o (R.blobState b) = 1 &&
          ecdsaVerify (leBytes 97 (s.o (R.blobPub b)).toNat) (sha384 msg) (leBytes 96 token.toNat))

/-- The debug port opens (R360): MEAS5 is extended, and what binds it unloads. -/
def openDebug : Script :=
  all [ put R.debugState 1, extend 5 [1],
        .dyn fun s => each ((upTo 256).filter fun n => s.o (R.slotState n) = 1 && (s.o (R.slotAttr n)).toNat.testBit 13) fun n =>
          .seq (put (R.slotState n) 2) (put (R.vsKey n) 0),
        .dyn fun s => each ((upTo 16).filter fun b => s.o (R.blobState b) = 1 && (blobMask b).testBit 5) fun b =>
          .seq (put (R.blobState b) 2) (put (R.vbKey b) 0),
        showMetrologyKey ]

/-- LC_TOKEN takes effect (R359): the nonce is used up; a valid token moves the unit at the next PFB, under M7 and
M14, or opens the debug port. -/
def applyLcToken (token : Int) (src : Src) : Script :=
  .dyn fun s =>
    let goal := s.o R.lcTo
    let idle := (upTo s.nOut).all fun k => s.os k = osIdle || s.os k = osEnded
    let ready := !(s.lc = 2 && goal = 3) || (s.o (R.blobState 3) = 1 && s.status 266 = 1)
    .seq
      (if !s.lcTokenOk token then put R.lcResult 2
       else if goal = 128 then .seq (put R.lcResult 1) openDebug
       else if !idle then .seq (put R.lcResult 3) (refuse 7 0x4B30 src)
       else if s.role = roleActive then .seq (put R.lcResult 3) (refuse 14 0x4B30 src)
       else if !ready then put R.lcResult 3
       else all [ put R.lcResult 1, put R.lcDue (goal + 1),
                  if s.role = roleStandby then .seq (refuse 14 0x4B30 src) (setRole roleSuspect) else .skip ])
      (put R.lcNs (-1))

/-- The transition due at a PFB. -/
def lcPfb : Script :=
  .dyn fun s => onlyIf (s.o R.lcDue != 0) (.seq (enterLc (s.o R.lcDue - 1)) (put R.lcDue 0))

/-- TAMPER_BREACH (R361): the DUS helper data is erased and the unit retires at once; in MANUFACTURE it only counts.
While the AO supply is lost the mesh is unwatched (R67).
[DEDUCED, log 65] -/
def execTamperBreach (s : State) : Host.Outcome State Fault Refusal :=
  doesIf (fun s => 1 ≤ s.lc && s.lc ≤ 4 && s.o R.aoLost != 1)
    (.dyn fun s =>
      .seq (bump R.tamperEvents)
        (if s.lc = 1 then .skip
         else all [ put R.dusGone 1,
           each ((upTo 256).filter fun n => s.o (R.slotState n) != 0) fun n => .seq (put (R.slotState n) 2) (put (R.vsKey n) 0),
           each ((upTo 16).filter fun b => s.o (R.blobState b) != 0) fun b => .seq (put (R.blobState b) 2) (put (R.vbKey b) 0),
           put R.lcState 5, put R.debugState 0, put R.vaultState 2, put R.vaultRun 0, put R.lcDue 0, showMetrologyKey ])) s

end Sys2Proof.Machine
end

