-- ==== Sys2Proof/Machine/Persistence.lean ====
section
/-!
DEFINITION. Persistence (spec/02_object_catalogue.md R57, R58; spec/18_folios_and_queues.md R362–R369): what each region
holds, the two folio commands, the read at start-up; and the commands of the accession queues (R371–R377).
-/

namespace Sys2Proof.Machine

/-! ## What the regions hold -/

/-- Whether an object is of the persisted set (R57). -/
def persisted (k : Key) : Bool :=
  match accOf k with
  | some .rws => true
  | some (.rwl _) => true
  | _ => k = R.canLotWrite

/-- The persisted configuration as it stands: values that differ from their defaults. -/
def State.configSet (s : State) : Store :=
  (s.active.filter fun e => persisted e.1).foldl (fun st e => st.set dflt e.1 e.2)
    (Store.set dflt [] R.canLotWrite (s.o R.canLotWrite))

/-- A module's fault cards (R175): LATCH_MASK, NEWEST, the eight slots, the last number. -/
def State.cardRecord (s : State) (m : Nat) : List Int :=
  [s.o (R.latchMask m), s.o (R.newest m)] ++ ((upTo 8).map fun j => s.o (R.cardSlot m j)) ++ [s.o (R.lastCardNo m)]

/-- The pair identity (R362). -/
def State.pairRecord (s : State) : List Int :=
  [s.o R.partnerSerial, s.o R.partnerImage, s.role, s.o R.joinFrame]

/-- At a PFB: the snapshot of a requested store (R57) and the folios of modules with new cards (R175). -/
def storePfb : Script :=
  .dyn fun s =>
    all [ if s.o R.storeReqd != 1 then .skip
          else .seq (put R.storeReqd 0)
            (if !s.folioSupply then .seq (put R.storeState 3) (bump R.folioDeferred)
             else all [ put R.storeState 1, put R.storeFrame s.frame, 
               folioRequest 1 0 [ofBool (s.d.latches.any fun l => l.cause = 8)] s.configSet ]),
          each ((upTo s.nPm).filter fun m => s.o (R.cardDirty m) = 1) fun m =>
            .seq (put (R.cardDirty m) 0) (folioRequest 2 m (s.cardRecord m) []) ]

/-- RESTORE_DEFAULTS takes effect (R369). -/
def applyRestoreDefaults : Script := .seq (putFolio ⟨1, 0, .blank, .blank⟩) (refreshRegion 1)

/-! ## The folio commands (R366–R368) -/

/-- What a deferred write means to its owner (R57, R175, R255, R356): the others wait and are tried again. -/
def folioDeferred (r f : Nat) : Script :=
  .seq (bump R.folioDeferred)
    (match r with
     | 1 => .seq (put R.storeState 3) (dropJob 1 0)
     | 2 => bump (R.cardsUnsaved f)
     | 3 => .dyn fun s => put (R.bsFlags f) (withBit (s.o (R.bsFlags f)) 7 true)
     | 5 => .seq (.dyn fun s => onlyIf (s.o R.vaultRun = 5) (put R.vaultPhase 4)) (dropJob r f)
     | 6 => .seq (.dyn fun s => onlyIf (s.o R.vaultRun = 5) (put R.vaultPhase 4)) (dropJob r f)
     | _ => .skip)

/-- FOLIO_WRITE (R366, R367): the write at the head of the order starts on the bank that is not in force, if the
supplies permit.
[DESIGN CHOICE, log 62] -/
def execFolioWrite (region : Fin 7) (folio : Nat) (s : State) : Host.Outcome State Fault Refusal :=
  doesIf (fun s => match s.d.folioJobs.head? with
      | some j => j.region = region.val && j.folio = folio && !j.running && !(s.d.folioJobs.any (·.running))
      | none => false)
    (.dyn fun s =>
      let r := region.val
      if !s.folioSupply then folioDeferred r folio
      else
        let x := s.folio r folio
        let onB := match x.pick with | some (_, b) => !b | none => false
        let cut := fun (b : Bank) => { b with state := 2 }
        all [ putFolio (if onB then { x with b := cut x.b } else { x with a := cut x.a }),
              upd fun d => { d with folioJobs := d.folioJobs.map fun j =>
                if j.region = r && j.folio = folio then { j with running := true, onB := onB } else j } ]) s

/-- What a completed write means to its owner. -/
def folioDone (r f : Nat) (keyed : Store) : Script :=
  match r with
  | 1 => .seq (put R.storeState 2) (put R.configDigest (Config.configDigest keyed).toNat)
  | 3 => .dyn fun s => put (R.bsFlags f) (withBit (s.o (R.bsFlags f)) 7 false)
  | 5 => .dyn fun s => onlyIf (s.o R.vaultRun = 5 && s.o R.vaultPhase = 0) (put R.vaultPhase 1)
  | 6 => .dyn fun s => onlyIf (s.o R.vaultRun = 5 && s.o R.vaultPhase = 0) (put R.vaultPhase 1)
  | _ => .skip

/-- What a failed write means to its owner. -/
def folioFailed (r : Nat) : Script :=
  match r with
  | 1 => put R.storeState 4
  | 5 => .dyn fun s => onlyIf (s.o R.vaultRun = 5 && s.o R.vaultPhase = 0) (put R.vaultPhase 3)
  | 6 => .dyn fun s => onlyIf (s.o R.vaultRun = 5 && s.o R.vaultPhase = 0) (put R.vaultPhase 3)
  | _ => .skip

/-- The end of a write: newer content is written directly after it (R368). -/
def folioEnd (j : FolioJob) : Script :=
  .seq
    (upd fun d =>
      let rest := d.folioJobs.filter fun x => !(x.region = j.region && x.folio = j.folio)
      { d with folioJobs := match j.next with
          | some (v, k) => ⟨j.region, j.folio, false, false, false, v, k, none⟩ :: rest
          | none => rest })
    (refreshRegion j.region)

/-- FOLIO_WRITE_COMPLETE (R366): `pass` is the check of what was read back; an injection at point 162 makes it fail
(R388). -/
def execFolioWriteComplete (region : Fin 7) (folio : Nat) (pass : Bool) (s : State) : Host.Outcome State Fault Refusal :=
  doesIf (fun s => match s.folioJob region.val folio with | some j => j.running | none => false)
    (.dyn fun s =>
      let r := region.val
      match s.folioJob r folio with
      | none => .skip
      | some j =>
        if pass && !s.injectsArg 162 (r * 4096 + folio) then
          let x := s.folio r folio
          let seq := match x.pick with | some (b, _) => (b.seq + 1) % 4294967296 | none => 1
          let new : Bank := ⟨1, seq, j.vals, j.keyed⟩
          all [ putFolio (if j.onB then { x with b := new } else { x with a := new }),
                bump R.folioWrites, put (R.lastWriteFrame r) s.frame, put (R.regFail r) 0,
                folioEnd j, folioDone r folio j.keyed ]
        else if !j.again then
          upd fun d => { d with folioJobs := d.folioJobs.map fun y =>
            if y.region = r && y.folio = folio then { y with again := true } else y }
        else all [ bump R.writeFails, put (R.regFail r) 1, folioEnd j, folioFailed r ]) s

/-! ## The read at start-up (R58, R365, R369) -/

/-- Cards of a module from its folio. -/
def cardLoad (m : Nat) : Script :=
  .dyn fun s =>
    match (s.folio 2 m).pick with
    | none => .skip
    | some (b, _) =>
      all [ put (R.latchMask m) (b.vals.getD 0 0), put (R.newest m) (b.vals.getD 1 255),
            each (upTo 8) fun j => put (R.cardSlot m j) (b.vals.getD (2 + j) 0), put (R.lastCardNo m) (b.vals.getD 10 0) ]

/-- The persisted configuration goes into the shadows; what has no shadow is in force at once (R58). -/
def configLoad : Script :=
  .dyn fun s =>
    match (s.folio 1 0).pick with
    | none => .skip
    | some (b, _) =>
      .seq (each b.keyed fun e =>
          if shadowed e.1 then putS e.1 e.2 else if plainRwl e.1 then putA e.1 e.2 else put e.1 e.2)
        (put R.configDigest (Config.configDigest b.keyed).toNat)

/-- Folios of a region. -/
def regionFolios (r : Nat) : List Nat :=
  match r with
  | 2 => upTo 48
  | 3 => upTo 16
  | 5 => upTo 272
  | 6 => upTo 272
  | _ => [0]

/-- Whether a folio is neither unwritten nor has a valid bank (R369). -/
def State.folioLost (s : State) (r f : Nat) : Bool := !(s.folio r f).unwritten && (s.folio r f).pick.isNone

/-- Start-up step 5: regions 0 to 4 are read; what a default stands for is reported (R369). `lost` says that the AO
supply was lost. -/
def folioStart (lost : Bool) : Script :=
  .dyn fun s =>
    let bad := fun r => ((regionFolios r).filter fun f => s.folioLost r f).length
    all [ put R.calMissing (ofBool (s.folio 0 0).pick.isNone),
          each (upTo 7) fun r =>
            let n := if r < 5 || r = s.vaultRegion then bad r else 0
            all [ put (R.regDef r) n, put (R.foliosDefaulted r) n, put (R.regFail r) 0,
                  if n = 0 then .skip else .dyn fun s => onlyIf (s.o R.startFail = 0) (put R.startFail 5) ],
          each (upTo 7) refreshRegion,
          configLoad, each (upTo 48) cardLoad,
          each (upTo 16) fun t => bsLoad t lost,
          (match (s.folio 4 0).pick with
           | some (b, _) => all [ put R.partnerSerial (b.vals.getD 0 0), put R.partnerImage (b.vals.getD 1 0),
               put R.pairLastRole (b.vals.getD 2 0), put R.joinFrame (b.vals.getD 3 0) ]
           | none => .skip) ]

/-! ## Accession queues (R371–R377) -/

/-- Q_CONSUME takes effect.
[DEDUCED, log 38] -/
def applyQConsume (q : Nat) (n : Int) : Script :=
  .dyn fun s =>
    let left := ((s.queue q).words.drop n.toNat).length
    let gain : Int := (((s.queue q).consume n.toNat).words.length : Int) - left
    .seq (.one (.consume q n.toNat)) (if gain = 0 then .skip else put (R.qWritten q) (s.o (R.qWritten q) + gain))

/-- Q_RESET takes effect. -/
def applyQReset (q : Nat) : Script := .one (.empty q)

/-- Q_FLAG_CLEAR takes effect (R373). -/
def applyQFlagClear (q : Nat) : Script := .one (.clearFlags q)

/-- An error found in a word: corrected, or the word becomes the poison word (R371). -/
def queueError (q pos : Nat) (double : Bool) : Script :=
  .dyn fun s => onlyIf (decide (pos < (s.queue q).words.length) && decide (q < 64))
    (if double then all [ .one (.poison q pos), bump (R.qUncorrCount q), health 4 ]
     else all [ bump (R.qEccCorr q), bump R.eccCorrected, health 3 ])

/-- QUEUE_SCRUB (R371): once every 1,000 frames every occupied word is read; `errs` names the errors found: queue,
position from the oldest word, and whether it is a double-bit error. An injection at point 161 adds one (R388). -/
def execQueueScrub (errs : List (Nat × Nat × Bool)) (s : State) : Host.Outcome State Fault Refusal :=
  doesIf (fun s => s.o R.scrubFrame < 0 || decide (1000 ≤ ((s.frame : Int) - s.o R.scrubFrame) % 4294967296))
    (.dyn fun s =>
      let inj := if s.injects 161 then [((s.o (R.injArg 161)).toNat % 256, 0, bit (s.o (R.injArg 161)) 8)] else []
      .seq (put R.scrubFrame s.frame) (each (errs ++ inj) fun e => queueError e.1 e.2.1 e.2.2)) s

/-- The telemetry word of an object (R377). -/
def State.tlmWord (s : State) (obj : Int) : Nat :=
  let k : Key := obj.toNat % 16777216
  (s.read k false % 18446744073709551616).toNat

/-- TELEMETRY_RECORD (R377): at a PFB whose FRAME_NO is a multiple of TLM_PERIOD, while an object is named. -/
def execTelemetryRecord (s : State) : Host.Outcome State Fault Refusal :=
  doesIf (fun s => s.next.val = 0 && (s.frame : Int) % (pos (s.a R.tlmPeriod)) = 0 && s.o R.tlmFrame != (s.frame : Int)
      && (upTo 8).any fun j => s.a (R.tlmObj j) != 0)
    (.dyn fun s =>
      let objs := ((upTo 8).map fun j => s.a (R.tlmObj j)).filter (· != 0)
      .seq (put R.tlmFrame s.frame)
        (raise R.tlmQueue ((14 * 2 ^ 60 + objs.length * 2 ^ 56 + s.frame) :: objs.map s.tlmWord))) s

end Sys2Proof.Machine
end

