-- ==== Sys2Proof/Machine/Switchgear.lean ====
section
/-!
DEFINITION. The switchgear links (spec/05_output_sessions_switchgear.md R115–R125): cycles, responses, lost and
returning expanders, and what a readback does.
-/

namespace Sys2Proof.Machine

/-- Expander number of expander e on link l. -/
def expNo (l e : Nat) : Nat := 32 * l + e

/-- An event word of a link (R123). -/
def sglEvent (ev l e c : Nat) : Script := event (R.sglEventQueue l) ev l (e * 256 + c)

/-! ## The cycle (R117, R118, R121) -/

/-- The group of R121 in which an expander's word is pending, 0 none. -/
def State.sglGroup (s : State) (x : Nat) : Nat :=
  if s.o (R.expKind x) = 1 && 0 < s.o (R.expLeft x) then 1
  else if s.o (R.expHold x) != 0 || (s.o (R.expKind x) = 2 && 0 < s.o (R.expLeft x)) then 2
  else if 0 < s.o (R.expLeft x) then 3 else 0

/-- Known and enabled expanders of link l. -/
def State.sglServed (s : State) (l : Nat) : List Nat :=
  (upTo 32).filter fun e => s.expEnabled (expNo l e) && s.o (R.expKnown (expNo l e)) = 1

/-- The expanders that get an entry in this cycle, and how many pending words find no place.
[DEDUCED, log 33] -/
def State.sglPlan (s : State) (l : Nat) : List Nat × Nat :=
  let srv := s.sglServed l
  let grp := fun g => srv.filter fun e => s.sglGroup (expNo l e) = g
  let pend := grp 1 ++ grp 2 ++ grp 3
  let nxt := (s.o (R.sglNext l)).toNat
  let rot := (srv.filter (nxt ≤ ·) ++ srv.filter (· < nxt)).filter fun e => s.sglGroup (expNo l e) = 0
  ((pend ++ rot).take 12, pend.length - 12)

/-- One entry: ADDR, CMD and its CRC-16. -/
def sglEntry (e cmd : Nat) : Nat × Nat × Nat := (e, cmd, crc16 [e, cmd / 256, cmd % 256])

/-- A cycle of link l (R121). -/
def sglLinkCycle (l : Nat) : Script :=
  .dyn fun s =>
    let (es, overs) := s.sglPlan l
    let refreshed := es.filter fun e => s.sglGroup (expNo l e) = 0
    all [ send (.sgl l (es.length * 16 + (15 - es.length))
            (es.map fun e => sglEntry e (s.o (R.expCmd (expNo l e))).toNat)),
          each (upTo 32) fun e => .seq (put (R.expOld (expNo l e)) (s.o (R.expLast (expNo l e))))
            (put (R.expLast (expNo l e)) (s.o (R.expCmd (expNo l e)))),
          each es fun e => put (R.expLeft (expNo l e)) (max 0 (s.o (R.expLeft (expNo l e)) - 1)),
          put (R.entriesDeferred l) (s.o (R.entriesDeferred l) + overs),
          match refreshed.getLast? with
          | some e => put (R.sglNext l) ((e + 1) % 32 : Nat)
          | none => .skip,
          bump (R.cycleCount l) ]

/-- SGL_CYCLE (R117, R121, R124): at samples 0, 125, 250 and 375, on every enabled link, by the unit that holds gate
ownership. -/
def execSglCycle (s : State) : Host.Outcome State Fault Refusal :=
  doesIf (fun s => s.sample % 125 = 0 && s.o (R.sglDone 0) != (s.gcount : Int))
    (.dyn fun s => all [ put (R.sglDone 0) s.gcount,
      each ((upTo 4).filter fun l => s.a (R.sglEnable l) = 1 && s.onBus) sglLinkCycle ]) s

/-! ## Responses (R119, R123) -/

/-- LINK_STATE of a link that is not down. -/
def linkUp (l : Nat) : Script :=
  .dyn fun s => put (R.sglLinkState l)
    (if s.a (R.sglEnable l) != 1 then 0 else if s.o (R.lostMask l) != 0 then 2 else 1)

/-- An invalid cycle of an expander (R123). -/
def badResponse (l e : Nat) (missing : Bool) : Script :=
  .dyn fun s =>
    let x := expNo l e
    all [ if missing then bump (R.noResponse l) else bump (R.crcErrors l),
          put (R.expFlags x) (withBit (s.o (R.expFlags x)) 4 true),
          put (R.expBad x) (s.o (R.expBad x) + 1), put (R.expGood x) 0 ]

/-- Whether a response carries its slot's address and a right CRC. -/
def respValid (e : Nat) (r : SglResp) : Bool :=
  r.addr % 32 = e && r.addr < 256 && r.crc = crc16 [r.addr, r.aux / 256 % 256, r.aux % 256, r.cur]

/-- What an injection at point 136 + l does to the responses of expander e (R388): 0 none, 1 CRC error, 2 RESTARTED,
3 a contact forced closed. -/
def State.sglInjected (s : State) (l e : Nat) : Option Nat :=
  let arg := (s.o (R.injArg (136 + l))).toNat
  if s.injects (136 + l) && arg % 32 = e then some (arg / 256) else none

/-- A response as the injection has it. -/
def sglForced (x : Option Nat) (c : Int) (r : SglResp) : SglResp :=
  match x with
  | some 2 => { r with addr := r.addr ||| 128 }
  | some 3 => { r with aux := r.aux ||| 2 ^ (c.toNat % 16) }
  | _ => r

/-- SGL_RESPONSE (R123): a valid response is stamped and applies in its sample; one that fails its check counts as
invalid. A standby takes the active's mirrored copy (R124). -/
def execSglResponse (l : Lnk) (e : Exp) (r : SglResp) (s : State) : Host.Outcome State Fault Refusal :=
  doesIf (fun s => s.expEnabled (expNo l e))
    (.dyn fun s =>
      match s.sglInjected l e with
      | some 0 => badResponse l e true
      | some 1 => badResponse l e false
      | x => if respValid e r then receive (.aux l e (sglForced x (s.o (R.injValue (136 + l))) r)) else badResponse l e false) s

/-- SGL_RESPONSE_INVALID (R123): a slot's response is missing, or fails its CRC or its address. -/
def execSglResponseInvalid (l : Lnk) (e : Exp) (missing : Bool) (s : State) : Host.Outcome State Fault Refusal :=
  doesIf (fun s => s.expEnabled (expNo l e)) (badResponse l e missing) s

/-- The output concerned by a coil of expander x, and whether it is a DC contactor (R115). -/
def State.coilOut (s : State) (x c : Nat) : Option (Nat × Bool) :=
  let l := x / 32
  let e := x % 32
  if e < 6 then
    let k := s.a (R.reach (12 * l + 2 * e + c / 8) (c % 8))
    if 0 ≤ k && k < 24 then some (k.toNat, false) else none
  else if (e = 6 || (e = 7 && c < 8)) && c % 4 < 2 then some (6 * l + (if e = 6 then 0 else 4) + c / 4, true)
  else none

/-- What the SF island judges on a readback (R338): confirmed openings, and contactors stuck closed.
[DEDUCED, log 33] -/
def stuckCheck (x : Nat) : Script :=
  each (upTo 16) fun c =>
    .dyn fun s =>
      if s.coilOn x c then .skip
      else if s.auxOpen2 x c then put (R.expConf x) (withBit (s.o (R.expConf x)) c true)
      else
        let late := decide (0 ≤ s.o (R.expOffAt x c)) && decide (s.a R.contFbUs < s.usSince (s.o (R.expOffAt x c)))
        if s.auxClosed2 x c && (bit (s.o (R.expConf x)) c || late) && !bit (s.o (R.expStuck x)) c then
          match s.coilOut x c with
          | none => .skip
          | some (k, dc) =>
            all [ put (R.expStuck x) (withBit (s.o (R.expStuck x)) c true),
                  latch k 2 1 (if dc then (s.a (R.outScoMask k)).toNat else 0) true,
                  if dc && s.os k = osWeld then endBy k 3 else .skip ]
        else .skip

/-- An expander that reports RESTARTED against a word with coils on (R123): they are not closed again.
[DEDUCED, log 33] -/
def expRestarted (l e : Nat) (old : Int) : Script :=
  .dyn fun s =>
    let x := expNo l e
    all [ sglEvent 0x43 l e 255,
          put (R.expCmd x) ((s.o (R.expCmd x)).toNat - ((s.o (R.expCmd x)).toNat &&& old.toNat) : Nat),
          put (R.expLeft x) 4, put (R.expKind x) 2,
          each (upTo 16) fun c => .dyn fun s =>
            if !bit old c then .skip
            else match s.coilOut x c with
              | some (k, true) =>
                if osConnected < s.os k && s.os k ≤ osWeld then endBy k 4 else .skip
              | some (k, false) =>
                let m := 12 * l + 2 * e + c / 8
                if s.holds m = k then .seq (releaseModule m) (regrant k) else .skip
              | none => .skip ]

/-- A readback takes effect (R123). -/
def applyAux (l e : Nat) (r : SglResp) : Script :=
  .dyn fun s =>
    let x := expNo l e
    let aux := r.aux % 65536
    let before := s.o (R.expAux x)
    let seen := 1 ≤ s.o (R.expRead x)
    let c0 := r.cur / 16 % 16
    all [
      put (R.expPrev x) before, put (R.expAux x) aux, put (R.expRead x) (s.o (R.expRead x) + 1),
      put (R.expFlags x) ((r.addr / 32 % 8) * 32 + (if s.expLost x then 8 else 0) : Nat),
      put (R.expGood x) (s.o (R.expGood x) + 1), put (R.expBad x) 0,
      if s.o (R.sglLinkState l) = 3 || s.o (R.sglLinkState l) = 0 then linkUp l else .skip,
      if s.o (R.expKnown x) = 1 then .skip
      else all [ put (R.expCmd x) aux, put (R.expLast x) aux, put (R.expOld x) aux, put (R.expKnown x) 1 ],
      if r.cur % 16 = 15 && s.o (R.coilI x c0) != 15 then sglEvent 0x44 l e c0 else .skip,
      put (R.coilI x c0) (r.cur % 16 : Nat),
      if r.addr.testBit 7 && s.o (R.expKnown x) = 1 && s.o (R.expOld x) != 0 then expRestarted l e (s.o (R.expOld x))
      else .skip,
      each ((upTo 24).filter fun k => outExp k = x) fun k =>
        .dyn fun s =>
          let c := outCoil k 0
          let n := (s.o (R.contactors k)).toNat / 8 * 8 + aux / 2 ^ c % 8
          let lost := fun c => seen && s.coilOn x c && bit before c && !aux.testBit c
          .seq (put (R.contactors k) n)
            (if (lost c || lost (c + 1)) && osConnected < s.os k && s.os k ≤ osWeld then endBy k 4 else .skip),
      .dyn fun s => put (R.expHold x) ((s.o (R.expHold x)).toNat &&& aux : Nat),
      stuckCheck x,
      each ((upTo 24).filter fun k => outExp k = x) fun k => .seq (isoHold k) (weldQuiet k) ]

/-- EXPANDER_LOST (R123): 12 consecutive invalid cycles; its modules are FROZEN and its outputs end. -/
def execExpanderLost (l : Lnk) (e : Exp) (s : State) : Host.Outcome State Fault Refusal :=
  doesIf (fun s => s.expEnabled (expNo l e) && !s.expLost (expNo l e) && 12 ≤ s.o (R.expBad (expNo l e)))
    (.dyn fun s => all [
      put (R.expFlags (expNo l e)) (withBit (s.o (R.expFlags (expNo l e))) 3 true),
      put (R.lostMask l) (withBit (s.o (R.lostMask l)) e.val true),
      sglEvent 0x41 l e 255,
      if s.o (R.sglLinkState l) = 3 then .skip else linkUp l,
      each ((upTo 48).filter fun m => selExp m = expNo l e) fun m => put (R.frozenLost m) 1,
      each ((upTo 24).filter fun k => outExp k = expNo l e) fun k =>
        .dyn fun s => onlyIf (osIso ≤ s.os k && s.os k ≤ osWeld) (endBy k 7) ]) s

/-- EXPANDER_RETURNED (R123): 4 consecutive valid responses. -/
def execExpanderReturned (l : Lnk) (e : Exp) (s : State) : Host.Outcome State Fault Refusal :=
  doesIf (fun s => s.expLost (expNo l e) && 4 ≤ s.o (R.expGood (expNo l e)))
    (.dyn fun s => all [
      put (R.expFlags (expNo l e)) (withBit (s.o (R.expFlags (expNo l e))) 3 false),
      put (R.lostMask l) (withBit (s.o (R.lostMask l)) e.val false),
      sglEvent 0x42 l e 255, linkUp l,
      each ((upTo 48).filter fun m => selExp m = expNo l e) fun m => put (R.frozenLost m) 0 ]) s

/-- LINK_DOWN (R123): every enabled expander of the link invalid for 12 cycles. -/
def execLinkDown (l : Lnk) (s : State) : Host.Outcome State Fault Refusal :=
  doesIf (fun s => s.a (R.sglEnable l) = 1 && s.o (R.sglLinkState l) != 3
      && (upTo 32).any (fun e => s.expEnabled (expNo l e))
      && (upTo 32).all fun e => !s.expEnabled (expNo l e) || 12 ≤ s.o (R.expBad (expNo l e)))
    (.seq (put (R.sglLinkState l) 3) (sglEvent 0x45 l 255 255)) s

end Sys2Proof.Machine
end

