-- ==== Sys2Proof/Machine/Vehicle.lean ====
section
/-!
DEFINITION. Vehicle links (spec/12_vehicle_links.md R258–R275): pilot lines, the messages of a session and their
answers, timeouts and link faults, and the modem ports.
-/

namespace Sys2Proof.Machine

/-! ## Pilot lines (R265, R266) -/

/-- OUTLET_TYPE of an output: 1 MCS, 2 CCS, 3 pantograph. -/
def State.outlet (s : State) (k : Nat) : Int := s.a (R.outletType k)

/-- The link of output k is served: it has a type, and VL and the firmware run (R258). -/
def State.hears (s : State) (k : Nat) : Bool :=
  decide (k < s.nOut) && s.outlet k != 0 && s.island iVL != 0 && s.island iVL != 5 && s.o R.apDown != 1

/-- The link is served by a unit that transmits on it (R262). -/
def State.linked (s : State) (k : Nat) : Bool := s.hears k && s.drives

/-- The pilot state of a pair of plateaus (R266): a CCS outlet drives a wave from CONNECTED on. -/
def State.pilotOf (s : State) (k : Nat) (high low : Int) : Nat :=
  if s.outlet k = 2 && s.os k != osIdle && -10500 < low then 6
  else if s.a (R.thAb k) < high then 0
  else if s.a (R.thBc k) ≤ high then 1
  else if s.a (R.thCd k) ≤ high then 2
  else if s.a (R.thDe k) ≤ high then 3
  else if s.a (R.thEf k) ≤ high then 4 else 5

/-- Whether a pilot state means a vehicle. -/
def isPresent (p : Int) : Bool := 1 ≤ p && p ≤ 3

/-- An event word of the vehicle links (R274). -/
def vlEvent (ev k val : Nat) : Script := event R.vlEventQueue ev k val

/-- VEHICLE_PRESENT (R266): a classification B, C or D enters as a stamped input, and as a report of a vehicle once it
has been held for ID_FILTER_US.
[DEDUCED, log 23] -/
def execVehiclePresent (k : Out) (highMv lowMv : Int) (heldUs : Nat) (s : State) : Host.Outcome State Fault Refusal :=
  doesIf (fun s => s.linked k && isPresent (s.pilotOf k highMv lowMv))
    (.dyn fun s => all [ put (R.pilotHighMv k) highMv, put (R.pilotLowMv k) lowMv,
      sense (if s.a (R.idFilterUs k) ≤ heldUs then .present k (s.pilotOf k highMv lowMv)
        else .pilot k (s.pilotOf k highMv lowMv)) ]) s

/-- UNPLUG (R266): a classification A, E, F or invalid, and an unplug once it has been held for UNPLUG_FILTER_US.
[DEDUCED, log 23] -/
def execUnplug (k : Out) (highMv lowMv : Int) (heldUs : Nat) (s : State) : Host.Outcome State Fault Refusal :=
  doesIf (fun s => s.linked k && !isPresent (s.pilotOf k highMv lowMv))
    (.dyn fun s => all [ put (R.pilotHighMv k) highMv, put (R.pilotLowMv k) lowMv,
      sense (if s.a (R.unplugFilterUs k) ≤ heldUs then .unplug k (s.pilotOf k highMv lowMv)
        else .pilot k (s.pilotOf k highMv lowMv)) ]) s

/-- The connection of output k is closed, and its session with it. -/
def vlClose (k : Nat) : Script :=
  all [ put (R.tcpOpen k) 0, put (R.tlsUp k) 0, put (R.tlsSecret k) 0, put (R.vlMsgNs k) (-1), put (R.vlSeqNs k) (-1),
        put (R.vlReneg k) 0, put (R.vlRenegSent k) 0, put (R.renegNs k) (-1), put (R.schedI k) 0 ]

/-- No vehicle has stated anything (R268).
[DEDUCED, log 39] -/
def vlForget (k : Nat) : Script :=
  all [ put (R.evIKnown k) 0, put (R.evVKnown k) 0, put (R.evMaxV k) 0, put (R.evMaxI k) 0, put (R.evMinI k) 0,
        put (R.evMaxDisI k) 0, put (R.iNeg k) 0, put (R.protocol k) 0, put (R.controlMode k) 0, refreshCap k ]

/-- A presence report takes effect. -/
def applyPresent (k pilot : Nat) : Script :=
  .dyn fun s =>
    all [ put (R.pilotState k) pilot, put (R.vehHere k) 1,
          if s.o (R.vehHere k) = 1 then .skip
          else all [ vlForget k, put (R.vlState k) 2, vlEvent 0x80 k 1 ],
          vehicleArrives k ]

/-- LINK_FAULT takes a code (R273, R274). -/
def linkFaultIs (k code : Nat) : Script := .seq (put (R.linkFault k) code) (vlEvent 0x82 k code)

/-- An unplug takes effect (R266, R273). -/
def applyUnplug (k pilot : Nat) : Script :=
  .dyn fun s =>
    all [ put (R.pilotState k) pilot, put (R.vehHere k) 0,
          if s.o (R.vehHere k) = 1 then vlEvent 0x80 k 0 else .skip,
          if 4 ≤ pilot && s.os k != osIdle then linkFaultIs k 6 else .skip,
          vlClose k, vlForget k, put (R.vlState k) 1, applyUnplugOut k ]

/-- A link fault takes effect (R273): in CONNECTED the output waits for a new SessionSetup. -/
def applyLinkFault (k code : Nat) : Script :=
  .dyn fun s =>
    let st := s.os k
    all [ linkFaultIs k code, vlClose k,
          if st = osConnected then put (R.vlState k) 2
          else if eligible st || st = osRamp || st = osWeld then
            all [ put (R.vlState k) 6, put (R.outLinkLost k) 1, endBy k 11 ]
          else .skip ]

/-- Every output at a PFB: VL_STATE follows OUTLET_TYPE, and a vehicle that is present when the conditions of R75 and
R107 come to hold takes its output to CONNECTED.
[DEDUCED, log 23] -/
def vehiclePfb : Script :=
  each (upTo 24) fun k => .dyn fun s =>
    let on := s.outlet k != 0 && s.island iVL != 0 && decide (k < s.nOut)
    .seq (if !on then put (R.vlState k) 0 else if s.o (R.vlState k) = 0 then put (R.vlState k) 1 else .skip)
      (onlyIf (s.os k = osIdle && s.o (R.vehHere k) = 1 && s.lc != 0 && s.lc != 5 && s.mayLeaveIdle k)
        (pendState k osConnected 0))

/-! ## Connections (R260–R262) -/

/-- Kinds of what is sent to a vehicle. -/
def vkSdp : Nat := 1
def vkTcpAccept : Nat := 2
def vkTcpReset : Nat := 3
def vkTls : Nat := 4
def vkSequenceError : Nat := 5
def vkFailed : Nat := 6
def vkSetup : Nat := 7
def vkCableCheck : Nat := 8
def vkPreCharge : Nat := 9
def vkPowerDelivery : Nat := 10
def vkChargeLoop : Nat := 11
def vkWelding : Nat := 12
def vkSessionStop : Nat := 13
def vkSlac : Nat := 14
def vkShutdown : Nat := 15

/-- SECC_DISCOVERY (R260): answered with the TCP port; a link without TLS is not offered (R261). -/
def execSeccDiscovery (k : Out) (tlsWanted : Bool) (s : State) : Host.Outcome State Fault Refusal :=
  doesIf (fun s => s.linked k && (s.outlet k = 1 || s.outlet k = 3))
    (.dyn fun s => .seq (send (.vehicle k vkSdp [s.a R.seccTcpPort, 1, ofBool tlsWanted]))
      (if s.o (R.vlState k) = 2 then put (R.vlState k) 3 else .skip)) s

/-- TCP_CONNECT (R260): one connection at a time; a second attempt is reset. -/
def execTcpConnect (k : Out) (s : State) : Host.Outcome State Fault Refusal :=
  doesIf (fun s => s.linked k)
    (.dyn fun s =>
      if s.o (R.tcpOpen k) = 1 then send (.vehicle k vkTcpReset [])
      else .seq (put (R.tcpOpen k) 1) (send (.vehicle k vkTcpAccept []))) s

/-- Whether slot t may sign for the TLS record engine with a key of R261: P-521 or Ed448 (R353). -/
def State.tlsKey (s : State) (t : Int) : Bool :=
  0 ≤ t && t < 255 && s.o (R.slotState t.toNat) = 1 && bit (s.o (R.slotAttr t.toNat)) 19 && bit (s.o (R.slotAttr t.toNat)) 0
    && (s.o (R.slotType t.toNat) = 3 || s.o (R.slotType t.toNat) = 4)

/-- TLS_HANDSHAKE (R261, R262): the traffic secrets are a free value; in a pair they cross from engine to engine. -/
def execTlsHandshake (k : Out) (o : TlsOffer) (s : State) : Host.Outcome State Fault Refusal :=
  doesIf (fun s => s.linked k && s.o (R.tcpOpen k) = 1 && s.o (R.tlsUp k) != 1 && (s.outlet k = 1 || s.outlet k = 3))
    (.dyn fun s =>
      if o.tls13 && o.aes256gcm && o.secp521r1 && s.tlsKey (s.a (R.tlsSlot k)) then
        draw 384 fun x =>
          all [ put (R.tlsUp k) 1, put (R.tlsSecret k) x, put (R.vlState k) 4, send (.vehicle k vkTls []),
                if s.role = roleActive then send (.pair 9 [k.val, x]) else .skip ]
      else .seq (send (.alert k 40)) (vlClose k)) s

/-! ## Answers (R269, R270) -/

/-- EVSEMaximumChargeCurrent before rounding: min(OUT_GRANT_I, OUT_CAP_I). -/
def State.evseI (s : State) (k : Nat) : Int := min (s.o (R.outGrantI k)) (s.o (R.outCapI k))

/-- An answer: its own values, then the EVSE limits in 0.1 A, 0.1 kW and 0.1 V, and whether it carries
ScheduleRenegotiation. -/
def answer (k kind : Nat) (vals : List Int) : Script :=
  .dyn fun s =>
    let i := s.evseI k
    let p := (i * s.o (R.vOut k)).tdiv 100000000
    let ren := s.o (R.vlReneg k) = 1
    all [ send (.vehicle k kind (vals ++ [i.tdiv 100, p, (s.a (R.outMaxV k)).tdiv 100, ofBool ren])),
          put (R.lastStatedI k) (i.tdiv 100 * 100),
          if ren then all [ put (R.vlReneg k) 0, put (R.vlRenegSent k) 1, vlEvent 0x83 k ((i / 1000).toNat % 65536) ]
          else .skip ]

/-! ## Messages (R267, R268) -/

/-- Whether a session's messages can arrive: a connection, and TLS but on a CCS outlet.
[DEDUCED, log 63] -/
def State.talks (s : State) (k : Nat) : Bool :=
  s.hears k && s.o (R.tcpOpen k) = 1 && (s.outlet k = 2 || s.o (R.tlsUp k) = 1)

/-- A request: counted and stamped where it is valid in the present state; else answered with FAILED_SequenceError,
and a link fault 4 is stamped. A unit that does not drive keeps what it receives (R262, R316).
[DEDUCED, log 63] -/
def request (k : Out) (valid : State → Bool) (m : VehMsg) (s : State) : Host.Outcome State Fault Refusal :=
  doesIf (fun s => s.talks k)
    (.dyn fun s =>
      if !s.drives then (if valid s then receive (.vehicle k m) else .skip)
      else if valid s then
        all [ put (R.msgRx k) (s.o (R.msgRx k) + 1), put (R.vlMsgNs k) s.now, sense (.vehicle k m) ]
      else .seq (send (.vehicle k vkSequenceError [])) (sense (.linkFault k 4))) s

/-- SESSION_SETUP (R267): valid in CONNECTED; ScheduleExchange also after a ScheduleRenegotiation (R270). -/
def execSessionSetup (k : Out) (kind : SetupKind) (sessionId evccId protocol mode : Nat) (lim : EvLimits) (schedI : Int)
    (s : State) : Host.Outcome State Fault Refusal :=
  request k (fun s => s.os k = osConnected
      || (kind = .scheduleExchange && s.os k = osEnergy && s.o (R.vlRenegSent k) = 1))
    (.setup kind sessionId evccId protocol mode lim schedI) s

/-- DC_CABLE_CHECK (R267, R268): out of sequence before the maximum voltage is stated. -/
def execDcCableCheck (k : Out) (s : State) : Host.Outcome State Fault Refusal :=
  request k (fun s => s.os k = osIso || (s.os k = osConnected && s.o (R.evVKnown k) = 1)) .cableCheck s

/-- DC_PRE_CHARGE (R267). -/
def execDcPreCharge (k : Out) (v : Int) (s : State) : Host.Outcome State Fault Refusal :=
  request k (fun s => s.os k = osPre
      || (s.os k = osIso && (s.o (R.isoResult k) = 1 || s.o (R.isoResult k) = 2))) (.preCharge v) s

/-- POWER_DELIVERY_START (R267): valid in PRECHARGE while ready. -/
def execPowerDeliveryStart (k : Out) (s : State) : Host.Outcome State Fault Refusal :=
  request k (fun s => s.os k = osPre && s.o (R.outReady k) = 1) .powerStart s

/-- DC_CHARGE_LOOP (R267, R268). -/
def execDcChargeLoop (k : Out) (lim : EvLimits) (s : State) : Host.Outcome State Fault Refusal :=
  request k (fun s => s.os k = osEnergy) (.chargeLoop lim) s

/-- POWER_DELIVERY_STOP (R267). -/
def execPowerDeliveryStop (k : Out) (s : State) : Host.Outcome State Fault Refusal :=
  request k (fun s => s.os k = osEnergy) .powerStop s

/-- DC_WELDING_DETECTION (R267). -/
def execDcWeldingDetection (k : Out) (s : State) : Host.Outcome State Fault Refusal :=
  request k (fun s => s.os k = osRamp) .welding s

/-- SESSION_STOP (R267): any state after CONNECTED. -/
def execSessionStop (k : Out) (s : State) : Host.Outcome State Fault Refusal :=
  request k (fun s => s.os k != osIdle && s.os k != osConnected) .sessionStop s

/-- A limit that the vehicle states is stored; one it leaves out stays as it was (R268). -/
def stated (v : Option Int) (r : Key) : Script := match v with | some x => put r x | none => .skip

/-- The vehicle's limits (R268): the maximum current is a term of OUT_CAP_I, the discharge limit counts under DC_BPT. -/
def vlLimits (k : Nat) (l : EvLimits) : Script :=
  all [ stated l.maxV (R.evMaxV k), stated l.maxI (R.evMaxI k), stated l.minI (R.evMinI k),
        if l.maxV.isSome then put (R.evVKnown k) 1 else .skip,
        if l.maxI.isSome then put (R.evIKnown k) 1 else .skip,
        .dyn fun s =>
          if s.o (R.protocol k) = 3 then .seq (stated l.maxDisI (R.evMaxDisI k)) (stated l.maxDisI (R.iNeg k))
          else .seq (put (R.evMaxDisI k) 0) (put (R.iNeg k) 0),
        refreshCap k ]

/-- Whether a protocol and a control mode are offered on output k (R258, R261); mode 0 states none. -/
def State.offered (s : State) (k protocol mode : Nat) : Bool :=
  (if s.outlet k = 2 then protocol = 1 else protocol = 2 || (protocol = 3 && s.a (R.bptEnable k) = 1))
    && (protocol = 1 || mode = 0 || (mode = 1 && bit (s.a (R.controlModes k)) 0) || (mode = 2 && bit (s.a (R.controlModes k)) 1))

/-- The requests of R268 in ENERGY_TRANSFER. -/
def vlRequests (k : Nat) (l : EvLimits) : Script :=
  .dyn fun s =>
    if s.o (R.protocol k) = 1 || s.o (R.controlMode k) = 2 then
      all [ stated l.targetV (R.outReqV k), stated l.targetI (R.outReqI k), put (R.outMinI k) 0 ]
    else
      let cap := match l.maxP with
        | some p => some ((p * 1000000) / (max (s.o (R.vOut k)) 200000))
        | none => none
      let i := match (if s.o (R.evIKnown k) = 1 then some (s.o (R.evMaxI k)) else none), cap with
        | some a, some b => some (min a b)
        | some a, none => some a
        | none, b => b
      all [ if s.o (R.evVKnown k) = 1 then put (R.outReqV k) (s.o (R.evMaxV k)) else .skip,
            stated i (R.outReqI k), put (R.outMinI k) (s.o (R.evMinI k)) ]

/-- A complete sequence step (R272).
[DEDUCED, log 63] -/
def seqStep (k : Nat) : Script := .dyn fun s => put (R.vlSeqNs k) s.now

/-- A message takes effect at its stamp, and is answered (R267–R269). The state may have changed since it was
accepted; a message that no longer fits it has no effect but its answer.
[DEDUCED, log 39, DEDUCED, log 63] -/
def applyVehicle (k : Nat) (m : VehMsg) : Script :=
  match m with
  | .setup kind sid evcc protocol mode lim sched =>
    .dyn fun s =>
      if !s.offered k protocol mode then .seq (send (.vehicle k vkFailed [])) (applyLinkFault k 4)
      else all [
        if kind = .sessionSetup then
          all [ put (R.sessionId k) sid, put (R.evccId k) evcc, put (R.vlState k) 5, vlEvent 0x81 k protocol ]
        else .skip,
        put (R.protocol k) protocol,
        if mode = 0 then .skip else put (R.controlMode k) mode,
        vlLimits k lim,
        if kind = .scheduleExchange then
          .dyn fun s => all [ put (R.schedI k) (if s.os k = osEnergy then min sched (s.evseI k) else sched),
            put (R.vlRenegSent k) 0, put (R.renegNs k) (-1) ]
        else .skip,
        seqStep k, answer k vkSetup [] ]
  | .cableCheck =>
    .dyn fun s =>
      let r := s.o (R.isoResult k)
      let done := s.os k = osIso && 1 ≤ r && r ≤ 3
      all [ if s.os k = osConnected && s.armed k && !s.expLost (outExp k) then pendState k osIso 0 else .skip,
            if done then seqStep k else .skip,
            answer k vkCableCheck [if done then (if r = 3 then 2 else 1) else 0] ]
  | .preCharge v =>
    .dyn fun s =>
      all [ if s.os k = osIso && (s.o (R.isoResult k) = 1 || s.o (R.isoResult k) = 2) then
              .seq (put (R.outReqV k) v) (pendState k osPre 0)
            else if s.os k = osPre then
              if v = s.o (R.outReqV k) then .skip
              else all [ put (R.outReqV k) v, put (R.outReady k) 0, put (R.outHoldNs k) (-1) ]
            else .skip,
            seqStep k, .dyn fun s => answer k vkPreCharge [s.o (R.dcVInst k)] ]
  | .powerStart =>
    .dyn fun s => all [ if s.os k = osPre then pendState k osEnergy 0 else .skip, seqStep k, answer k vkPowerDelivery [1] ]
  | .chargeLoop lim =>
    .dyn fun s => all [ if s.os k = osEnergy then .seq (vlLimits k lim) (vlRequests k lim) else .skip,
      seqStep k, answer k vkChargeLoop [s.o (R.dcVInst k), s.o (R.dcIInst k)] ]
  | .powerStop =>
    .dyn fun s => all [ if s.os k = osEnergy then endBy k 16 else .skip, seqStep k, answer k vkPowerDelivery [0] ]
  | .welding => .dyn fun s => .seq (seqStep k) (answer k vkWelding [s.o (R.dcVInst k)])
  | .sessionStop =>
    .dyn fun s => all [ if eligible (s.os k) then endBy k 16 else .skip, put (R.outVehOpen k) 1, put (R.vlState k) 6,
      answer k vkSessionStop [], put (R.vlMsgNs k) (-1), put (R.vlSeqNs k) (-1) ]

/-! ## Timing and faults (R270–R273) -/

/-- MESSAGE_TIMEOUT (R272). -/
def execMessageTimeout (k : Out) (s : State) : Host.Outcome State Fault Refusal :=
  doesIf (fun s => s.linked k && 0 ≤ s.o (R.vlMsgNs k)
      && decide ((if s.os k = osEnergy then s.a (R.msgTimeoutLoopUs k) else s.a (R.msgTimeoutOtherUs k))
        ≤ s.usSince (s.o (R.vlMsgNs k))))
    (.seq (put (R.vlMsgNs k) (-1)) (sense (.linkFault k 1))) s

/-- SEQUENCE_TIMEOUT (R272). -/
def execSequenceTimeout (k : Out) (s : State) : Host.Outcome State Fault Refusal :=
  doesIf (fun s => s.linked k && 0 ≤ s.o (R.vlSeqNs k) && decide (s.a (R.seqTimeoutUs k) ≤ s.usSince (s.o (R.vlSeqNs k))))
    (.seq (put (R.vlSeqNs k) (-1)) (sense (.linkFault k 2))) s

/-- LINK_CLOSED (R273): TCP closed or reset, or a TLS alert. -/
def execLinkClosed (k : Out) (s : State) : Host.Outcome State Fault Refusal :=
  doesIf (fun s => s.linked k && s.o (R.tcpOpen k) = 1) (.seq (put (R.tcpOpen k) 0) (sense (.linkFault k 3))) s

/-- The time since which the limit has been below the schedule (R270), taken in every sample. -/
def renegTrack (k : Nat) : Script :=
  .dyn fun s =>
    put (R.renegNs k)
      (if s.os k = osEnergy && s.o (R.controlMode k) = 2 && s.evseI k < s.o (R.schedI k) then
        (if 0 ≤ s.o (R.renegNs k) then s.o (R.renegNs k) else s.now) else -1)

/-- RENEGOTIATION_DUE (R270). -/
def execRenegotiationDue (k : Out) (s : State) : Host.Outcome State Fault Refusal :=
  doesIf (fun s => s.linked k && 0 ≤ s.o (R.renegNs k) && s.o (R.vlRenegSent k) != 1
      && decide (s.a (R.renegDelayUs k) ≤ s.usSince (s.o (R.renegNs k)))) (put (R.vlReneg k) 1) s

/-! ## Modems (R263, R264, R273) -/

/-- The output whose MODEM_SEL names select c of port p. -/
def State.modemOut (s : State) (p c : Nat) : Option Nat :=
  (upTo s.nOut).find? fun k => s.outlet k = 2 && s.a (R.modemSel k) = (p * 16 + c : Nat)

/-- MDMc_STATE of a port. -/
def mdmState (p c : Nat) : Key := if c = 0 then R.mdm0State p else R.mdm1State p

/-- Bytes of a CRC-16, most significant first. -/
def be16 (n : Nat) : List Nat := [n / 256 % 256, n % 256]

/-- What the controller drives in a transfer, for n frame bytes (R264). -/
def mdmOut (req : MdmReq) (n : Nat) : List Nat :=
  match req with
  | .write f => let b := f.map (·.toNat); [0xA5, 1] ++ be16 b.length ++ b ++ be16 (crc16 b)
  | .read => [0xA5, 2, 0, 0] ++ List.replicate n 0 ++ be16 (crc16 (List.replicate n 0))
  | .status => [0xA5, 3, 0, 0] ++ be16 (crc16 [])

/-- MODEM_TRANSFER (R264): one SPI transfer with the modem's answer; ten failed ones in a row put the modem down. -/
def execModemTransfer (p : Fe) (sel : Fin 2) (req : MdmReq) (resp : List Byte) (s : State) : Host.Outcome State Fault Refusal :=
  doesIf (fun s => (s.modemOut p sel).isSome && s.onBus && s.island iVL != 0)
    (.dyn fun s =>
      let r := resp.map (·.toNat)
      let n := r.getD 2 0 * 256 + r.getD 3 0
      let bad := r.getD 0 0 != 0x5A
      let fails := s.o (R.mdmFail p sel) + 1
      let link := (r.getD 1 0).testBit 6
      let frame := (r.drop 4).take n
      let crc := r.getD (4 + n) 0 * 256 + r.getD (5 + n) 0
      all [ send (.modem p ((mdmOut req n).map (BitVec.ofNat 8))),
            if bad then
              .seq (put (R.mdmFail p sel) fails)
                (if 10 ≤ fails && s.o (mdmState p sel) != 3 then
                  .seq (put (mdmState p sel) 3)
                    (match s.modemOut p sel with
                     | some k => if h : k < 24 then (if s.os k = osIdle then .skip else sense (.linkFault ⟨k, h⟩ 5)) else .skip
                     | none => .skip)
                 else .skip)
            else
              all [ put (R.mdmFail p sel) 0, put (mdmState p sel) (if link then 1 else 2),
                    match req with
                    | .read => if crc16 frame = crc then .skip else put (R.mdmCrcErr p) (s.o (R.mdmCrcErr p) + 1)
                    | .write _ => .skip
                    | .status => .skip ] ]) s

/-- SLAC_MATCH (R263): the average attenuation is at or below SLAC_ATTEN_MAX. -/
def execSlacMatch (k : Out) (atten : Nat) (s : State) : Host.Outcome State Fault Refusal :=
  doesIf (fun s => s.linked k && s.outlet k = 2 && s.os k != osIdle && (atten : Int) ≤ s.a (R.slacAttenMax k))
    (all [ put (R.slacDone k) 1, put (R.vlState k) 3, send (.vehicle k vkSlac [atten]) ]) s

/-- SLAC_TIMEOUT (R273): no match within 20 s of CONNECTED. -/
def execSlacTimeout (k : Out) (s : State) : Host.Outcome State Fault Refusal :=
  doesIf (fun s => s.linked k && s.outlet k = 2 && s.os k = osConnected && s.o (R.slacDone k) != 1
      && s.o (R.linkFault k) != 5 && decide (20000000 ≤ s.usSince (s.o (R.outNs k)))) (sense (.linkFault k 5)) s

end Sys2Proof.Machine
end

