-- ==== Sys2Proof/Machine/Startup.lean ====
section
/-!
DEFINITION. Domains, resets and reconciliation (spec/03_supplies_startup_reset.md R65–R72, R76–R79), the pair's
negotiation (spec/15_pair_operation.md R311), and the steps of start-up that come before the first frame (R73, R74).
-/

namespace Sys2Proof.Machine

/-! ## Channels and the CA island (R151) -/

/-- Whether channels may leave DISABLED at all: the part has a life cycle that runs (M7), CA runs, and a SOLO unit of a
pair holds SEL_FB (R310). -/
def State.channelsMayRun (s : State) : Bool :=
  (s.island iCA = 2 || s.island iCA = 3) && s.lc != 0 && s.lc != 5
    && !(s.o R.pairOn = 1 && s.role = roleSolo && s.o R.selFb != 1)

/-- A channel at a PFB, after the commits (R151, R171): DISABLED where CH_ENABLE is 0 or nothing may run, else out of
DISABLED to OPEN, or to LATCHED where its LATCH_MASK bit is set. -/
def channelPfb (n : Nat) : Script :=
  .dyn fun s =>
    let m := n / 4
    if s.cs n = csDisabled then
      onlyIf (decide (n < s.nCh) && s.a (R.chEnable n) = 1 && s.channelsMayRun)
        (setCh n (if bit (s.o (R.latchMask m)) (n % 4) then csLatched else csOpen))
    else if s.a (R.chEnable n) = 1 && s.channelsMayRun then .skip
    else .seq (setCh n csDisabled) (capabilityFell m)

/-- Every channel DISABLED, its gates low (R77). -/
def channelsDisabled : Script :=
  .dyn fun s => all [ each ((upTo 192).filter fun n => s.cs n != csDisabled) fun n => setCh n csDisabled,
                      each (upTo 48) capabilityFell ]

/-- CA reports RUN again (R71, R77): its engines stand as at a start. -/
def caRuns : Script :=
  all [ put (R.islandState iCA) 2, put R.caRun 1, put R.caReset 0, assignEngines ]

/-! ## Resets (R76, R77) -/

/-- Metering, the field die and the vault's own cells: registers that a full power-on reset leaves (R67, R77, R198,
R229), with the counters that are monotonic or count since first power-up, the clock and the model's count of time.
[DEDUCED, log 17] -/
def kept (k : Key) : Bool :=
  decide (0x380000 ≤ k ∧ k < 0x3B0000) || decide (0x3E0000 ≤ k ∧ k < 0x3F0000)
    || decide (0x1080000 ≤ k ∧ k < 0x10B0000) || decide (0x10F0000 ≤ k ∧ k < 0x1100000)
    || [R.fullResetCount, R.lcState, R.rollbackCtr, R.trialBoots, R.tamperEvents, R.unwatchedCount, R.unwatchedS,
        R.takeovers, R.now, R.siteOff, R.aoLost, R.aoLostNs, R.rtcValid, R.dusGone, R.imgTrial, R.unwatchDue, R.fwKey,
        R.fwKeyOld,
        R.mtNo, R.mtTickN, R.mtLatchDue, R.mtLastTick, R.zcArmed, R.zcPrev, R.zcDet, R.zcPend, R.zcCounted, R.zcTick,
        R.zcRun, R.mtNoMains, R.mtLatchNo, R.mtInstN, R.driftN 0, R.driftN 1, R.driftN 2, R.driftFrame, R.driftReq,
        R.mtFull, R.ledgerSeq, R.mtSaveNs, R.aoBase, R.keyIdOld, R.fwStored, R.fwVerOld, R.fldResync].contains k

/-- Active copies that a full power-on reset leaves until the load of step 7: those that the metrology die and the
field die hold themselves.
[DEDUCED, log 17] -/
def keptActive (k : Key) : Bool :=
  grpOf k = some gMet || decide (0x3E0000 ≤ k ∧ k < 0x3F0000)
    || decide (0x360000 ≤ k ∧ k < 0x361800 ∧ k % 256 = R.outMaxV 0 % 256)

/-- A full power-on reset (R77): the totals are saved as on an early warning, everything that no cell keeps is as right
after power-up, learning strings have lost what they had counted (R251), and START_UP may follow.
[DEDUCED, log 17] -/
def fullReset (cause : Nat) : Script :=
  .dyn fun s =>
    let learning := (upTo 16).filter fun t => bit (s.o (R.bsFlags t)) 4
    all [
      if s.mtRuns then totalsSave true else .skip,
      upd fun d => { State.reset.d with
        sent := d.sent, drawn := d.drawn, ledger := d.ledger, mtTotals := d.mtTotals, mtClose := d.mtClose,
        folios := d.folios, imgA := d.imgA, imgB := d.imgB },
      .one (.forget fun k => !kept k), .one (.forgetA fun k => !keptActive k), .one (.forgetS fun _ => true),
      each (upTo 64) fun q => .one (.empty q),
      mtDown, each learning fun t => put (R.bsLearnCut t) 1,
      bump R.fullResetCount, put R.porCause cause ]

/-- POWER_ON_RESET (R65, R76): PORST_N (1), a supply monitor (2), the SF cross-check (3) or a request at its PFB (4);
cause 0, the first power-up, is the one that comes before any start. -/
def execPowerOnReset (cause : Fin 5) (s : State) : Host.Outcome State Fault Refusal :=
  doesIf (fun s => if cause.val = 4 then s.next.val = 0 && s.o R.resetNow = 0x504F
      else if cause.val = 0 then s.o R.startPhase = 1 else true) (fullReset cause) s

/-- OSC_CROSS_CHECK_FAIL (R339, R76): a full power-on reset. -/
def execOscCrossCheckFail (s : State) : Host.Outcome State Fault Refusal :=
  doesIf (fun s => s.o R.startPhase != 0) (fullReset 3) s

/-- The AP island restarts (R77): transports close and the partition stops; loops run on. -/
def apResets (cause : Int) : Script :=
  .dyn fun s =>
    all [ put R.apDown 1, put R.apNs s.now, put (R.islandState iAP) 1, put R.resetCause cause, put R.resetNow 0,
          upd fun d => { d with txns := [], assocs := [] } ]

/-- The AP island is back. -/
def apRuns : Script := .seq (put R.apDown 0) (put (R.islandState iAP) 2)

/-- AP_RESET (R76, R77): the request at its PFB, or the watchdog, at any time after start-up. -/
def execApReset (requested : Bool) (s : State) : Host.Outcome State Fault Refusal :=
  doesIf (fun s => decide (7 ≤ s.o R.startPhase) &&
      (if requested then s.next.val = 0 && s.o R.resetNow = 0x4150 else s.o R.apDown != 1))
    (apResets (if requested then 8 else 7)) s

/-- The CA island restarts (R77, R78, R312, R322): a SOLO unit ramps down what is energised, with a shutdown notice to
the vehicle; an ACTIVE one yields first and joins again; a STANDBY unit becomes SUSPECT and joins again.
[DEDUCED, log 18] -/
def caResets (cause : Int) : Script :=
  .dyn fun s =>
    let runs := (upTo s.nOut).filter fun k => energised (s.os k)
    all [
      if s.role = roleActive || s.role = roleSwapping then
        all [ send (.pair 6 [cause]), put R.claim 0, setRole roleSuspect, put R.joining 1, put R.joinCnt 0 ]
      else if s.role = roleStandby then all [ setRole roleSuspect, put R.joining 1, put R.joinCnt 0 ]
      else each runs fun k => .dyn fun s =>
        all [ if s.o (R.vlMsgNs k) < 0 then .skip else send (.vehicle k vkShutdown []),
              endBy k 9, put (R.outLim k) 0, put (R.outZeroNs k) s.now ],
      each (upTo 24) clearGenerators, channelsDisabled,
      upd fun d => { d with edges := [] },
      put R.caRun 0, put R.caReset 1, put R.caResetNs s.now, put (R.islandState iCA) 1, put R.resetCause cause,
      put R.resetNow 0 ]

/-- CA_RESET (R76): the request at its PFB, or a fault of the island that a stocktake did not find (R381). -/
def execCaReset (requested : Bool) (s : State) : Host.Outcome State Fault Refusal :=
  doesIf (fun s => decide (7 ≤ s.o R.startPhase) &&
      (if requested then s.next.val = 0 && s.o R.resetNow = 0x4341
       else s.island iCA = 5 && !bit (s.o R.stFailMask) iCA))
    (caResets (if requested then 6 else 5)) s

/-- A request takes effect at its stamp; the PFB that follows carries it out (R76). -/
def applyResetReq (v : Int) : Script := put R.resetDue v

/-- At a PFB: the request due becomes the one carried out; a commanded full reset of an ACTIVE unit yields (R322). -/
def resetPfb : Script :=
  .dyn fun s =>
    onlyIf (s.o R.resetDue != 0)
      (all [ put R.resetNow (s.o R.resetDue), put R.resetDue 0,
             if s.o R.resetDue = 0x504F && s.role = roleActive then send (.pair 6 [4]) else .skip ])

/-- A request that no command has carried out by sample 0 is carried out there.
[DEDUCED, log 17] -/
def resetSample : Script :=
  .dyn fun s =>
    if s.o R.resetNow = 0x4150 then apResets 8
    else if s.o R.resetNow = 0x4341 then caResets 6
    else if s.o R.resetNow = 0x504F then fullReset 4
    else .skip

/-- The bounds of R77 on both restarts.
[DEDUCED, log 17] -/
def restartPfb : Script :=
  .dyn fun s =>
    all [ if s.o R.apDown = 1 && s.island iAP = 1 && decide (150000 ≤ s.usSince (s.o R.apNs)) then apRuns else .skip,
          if s.o R.caReset = 1 && decide (5000 ≤ s.usSince (s.o R.caResetNs)) then caRuns else .skip ]

/-- METROLOGY_DIE_RESET (R66): only the metrology die resets; its recovery is MT_RECOVERY. -/
def execMetrologyDieReset (s : State) : Host.Outcome State Fault Refusal :=
  doesIf (fun s => s.o R.mtState != 1)
    (.dyn fun s => all [ each ((upTo 24).filter fun k => s.o (R.dcSessState k) != 0) fun k => put (R.dcSessState k) 2,
                         mtDown, put (R.islandState iMT) 1 ]) s

/-- AO_POWER_LOSS (R67): VIO0 and VBAT are absent, so the part is in reset; the RTC stops, the mesh is unwatched. -/
def execAoPowerLoss (s : State) : Host.Outcome State Fault Refusal :=
  doesIf (fun s => s.o R.startPhase = 1 && s.o R.aoLost != 1)
    (.dyn fun s => all [ put R.aoLost 1, put R.aoLostNs s.site, put R.rtcValid 0 ]) s

/-! ## Domains (R69–R71) -/

/-- The island of domain d, if it has one of its own. -/
def domIsland (d : Nat) : Option Nat :=
  match d with
  | 1 => some iAP | 3 => some iCA | 4 => some iPL | 5 => some iMT | 6 => some iVL | 7 => some iNW | 8 => some iSF
  | 9 => some iSC | 10 => some iHK | 11 => some iPK | _ => none

/-- Why domain d may not be switched off: the code of DOMAIN_REFUSE_CAUSE, 0 if it may (R69). -/
def State.domRefusal (s : State) (d : Nat) : Int :=
  let outs := upTo s.nOut
  match d with
  | 3 => if !((upTo s.nCh).all fun n => s.cs n = csDisabled) then 3
         else if !(s.role = roleSolo || s.role = roleSuspect) then 4 else 0
  | 4 => if outs.all fun k => s.os k = osIdle || s.os k = osEnded || s.os k = osFault then 0 else 2
  | 6 => if outs.all fun k => s.os k = osIdle then 0 else 2
  | 7 => if (upTo 3).any s.canRuns || s.a R.udpEthMask != 0 || s.a R.ptpPort != 0
            || s.a R.mplMode != 0 || s.o R.timeSource = 2 then 5 else 0
  | 11 => if s.role = roleSolo && s.o R.pairOn != 1 then 0 else 4
  | 12 => if bit (s.o R.domainState) 6 || bit (s.o R.domainState) 7 || bit (s.o R.domainState) 11 then 6 else 0
  | _ => 1

/-- One domain at a PFB: DOMAIN_ON wins over DOMAIN_OFF (2050h.03). -/
def domPfb (off on d : Nat) : Script :=
  .dyn fun s =>
    let is := bit (s.o R.domainState) d
    let show' := fun (v : Int) => match domIsland d with | some i => put (R.islandState i) v | none => .skip
    if on.testBit d then
      onlyIf (!is) (.seq (put R.domainState (withBit (s.o R.domainState) d true)) (show' 1))
    else if off.testBit d && is then
      let why := s.domRefusal d
      if why = 0 then
        all [ put R.domainState (withBit (s.o R.domainState) d false), show' 0, if d = 3 then put R.caRun 0 else .skip,
              each (upTo 48) refreshMod ]
      else all [ put R.domainRefused (withBit (s.o R.domainRefused) d true),
                 if s.o R.domainRefuseCause = 0 then put R.domainRefuseCause why else .skip ]
    else .skip

/-- DOMAIN_SWITCH (R69, R71). -/
def domainPfb : Script :=
  .dyn fun s =>
    let off := (s.o R.domOff).toNat
    let on := (s.o R.domOn).toNat
    if off = 0 && on = 0 then .skip
    else all [ put R.domOff 0, put R.domOn 0,
               if off = 0 then .skip else .seq (put R.domainRefused 0) (put R.domainRefuseCause 0),
               each ((upTo 13).drop 1) (domPfb off on) ]

/-- An island's last stocktake (R381). -/
def stocktakeShown (i : Nat) (pass : Bool) : Script :=
  .dyn fun s => .seq (put (R.stResult i) (if pass then 1 else 2)) (put R.stFailMask (withBit (s.o R.stFailMask) i (!pass)))

/-- DOMAIN_STARTED (R71): the island of a domain that is on and STARTING has ended its stocktake and its reload, or its
restart after a reset. -/
def execDomainStarted (d : Fin 13) (pass : Bool) (s : State) : Host.Outcome State Fault Refusal :=
  doesIf (fun s => decide (7 ≤ s.o R.startPhase) && bit (s.o R.domainState) d.val && d.val != 5 &&
      match domIsland d.val with | some i => s.island i = 1 | none => false)
    (match domIsland d.val with
     | none => .skip
     | some i =>
       if pass then
         .dyn fun s => .seq (if s.o R.apDown = 1 || s.o R.caReset = 1 then .skip else stocktakeShown i true)
           (if i = iCA then caRuns else if i = iAP then apRuns else put (R.islandState i) 2)
       else .seq (stocktakeShown i false) (put (R.islandState i) 5)) s

/-! ## Reconciliation (R79) -/

/-- The closed selectors of module m. -/
def State.closedSelectors (s : State) (m : Nat) : List Nat :=
  (upTo 8).filter fun i => s.auxClosed (selExp m) (selCoil m i)

/-- Step 8's reading: the first valid responses of every expander, twice, and what they show closed. -/
def reconcileRead (l : List (Lnk × Exp × Nat)) : Script :=
  all [
    each (l ++ l) fun x => .dyn fun s =>
      onlyIf (s.expEnabled (expNo x.1 x.2.1)) (applyAux x.1 x.2.1 ⟨x.2.1, x.2.2, 0, 0⟩),
    .dyn fun s => all [
      each ((upTo s.nPm).filter fun m => !(s.closedSelectors m).isEmpty) fun m =>
        all [ put (R.reconSel m) 1, put (R.modFlags m) (withBit (s.o (R.modFlags m)) 0 true),
              put (R.modOutput m) (s.a (R.reach m ((s.closedSelectors m).headD 0))), bump R.unknownCount,
              put (R.lowNs m) (-1), put (R.highNs m) (-1), refreshMod m ],
      each ((upTo s.nOut).filter fun k => s.o (R.contactors k) % 8 != 0) fun k =>
        all [ put (R.outFound k) 1, put (R.outLowNs k) (-1), put (R.outHighNs k) (-1) ] ],
    .dyn fun s => put R.reconcileState
      (if (upTo 48).any (fun m => s.o (R.reconSel m) != 0) || (upTo 24).any (fun k => s.o (R.outFound k) != 0) then 1
       else 0) ]

/-- RECONCILE_OPEN (R79): below 2 A for 10 ms; the contacts found closed are commanded open. -/
def execReconcileOpen (f : Found) (s : State) : Host.Outcome State Fault Refusal :=
  match f with
  | .module m =>
    doesIf (fun s => s.o (R.reconSel m) = 1 && 0 ≤ s.o (R.lowNs m) && decide (10000 ≤ s.usSince (s.o (R.lowNs m))))
      (.dyn fun s => all [ each (s.closedSelectors m) fun i => coil (selExp m) (selCoil m i) false,
                           put (R.reconSel m) 2, put (R.unkNs m) s.now, put R.reconcileState 2 ]) s
  | .output k =>
    doesIf (fun s => s.o (R.outFound k) = 1 && s.quiet10 k)
      (.dyn fun s => all [ each (upTo 3) fun c => coil (outExp k) (outCoil k c) false,
                           put (R.outFound k) 2, put (R.outFoundNs k) s.now, put R.reconcileState 2 ]) s

/-- Whether the selectors of module m, or the contactors of output k, read open in two responses. -/
def State.selectorsOpen2 (s : State) (m : Nat) : Bool := (upTo 8).all fun i => s.auxOpen2 (selExp m) (selCoil m i)
def State.contactorsOpen2 (s : State) (k : Nat) : Bool := (upTo 3).all fun c => s.auxOpen2 (outExp k) (outCoil k c)

/-- RECONCILE_STUCK (R79): 2 A or more for 100 ms, or no confirmation within 20 ms. -/
def execReconcileStuck (f : Found) (s : State) : Host.Outcome State Fault Refusal :=
  match f with
  | .module m =>
    doesIf (fun s => (s.o (R.reconSel m) = 1 && 0 ≤ s.o (R.highNs m) && decide (100000 ≤ s.usSince (s.o (R.highNs m))))
        || (s.o (R.reconSel m) = 2 && !s.selectorsOpen2 m && decide (20000 ≤ s.usSince (s.o (R.unkNs m)))))
      (.dyn fun s => all [ put (R.reconSel m) 0, put (R.modFlags m) (withBit (s.o (R.modFlags m)) 0 false),
                           quarantine m 5, bump R.stuckCount ]) s
  | .output k =>
    doesIf (fun s => (s.o (R.outFound k) = 1 && 0 ≤ s.o (R.outHighNs k) && decide (100000 ≤ s.usSince (s.o (R.outHighNs k))))
        || (s.o (R.outFound k) = 2 && !s.contactorsOpen2 k && decide (20000 ≤ s.usSince (s.o (R.outFoundNs k)))))
      (all [ put (R.outFound k) 0, enterState k osFault 8, bump R.stuckCount ]) s

/-- At a PFB of step 8: confirmed openings; and the end of start-up once nothing found is left. -/
def reconcilePfb : Script :=
  .dyn fun s =>
    onlyIf (s.o R.startPhase = 8)
      (all [
        each ((upTo 48).filter fun m => s.o (R.reconSel m) = 2) fun m => .dyn fun s =>
          onlyIf (s.selectorsOpen2 m)
            (all [ put (R.reconSel m) 0, put (R.modFlags m) (withBit (s.o (R.modFlags m)) 0 false),
                   put (R.modOutput m) 255, refreshMod m ]),
        each ((upTo 24).filter fun k => s.o (R.outFound k) = 2) fun k => .dyn fun s =>
          onlyIf (s.contactorsOpen2 k) (.seq (put (R.outFound k) 0) (enterState k osEnded 17)),
        .dyn fun s =>
          onlyIf ((upTo 48).all (fun m => s.o (R.reconSel m) = 0) && (upTo 24).all (fun k => s.o (R.outFound k) = 0))
            (all [ put R.startPhase 9, put R.startTimeUs (s.usSince (s.o R.startNs)),
                   if s.o R.reconcileState = 0 then .skip
                   else put R.reconcileState (if 0 < s.o R.stuckCount then 4 else 3) ]) ])

/-! ## Start-up, steps 1 to 6 (R73, R74) -/

/-- Time passes.
[DESIGN CHOICE, log 6] -/
def elapse (us : Nat) : Script := .dyn fun s => put R.now (s.now + us * 1000)

/-- The first failure is the one recorded (R74). -/
def startFails (c : Int) : Script := .dyn fun s => onlyIf (s.o R.startFail = 0) (put R.startFail c)

/-- A step begins, and takes its time. -/
def stepBegins (n : Nat) (env : StartEnv) : Script := .seq (put R.startPhase n) (elapse (env.stepUs.getD (n - 1) 0))

/-- Step 1: the AO domain resumes (R67, R361); the clock has run for the ticks that the domain counted. -/
def startAo (env : StartEnv) : Script :=
  .dyn fun s =>
    let lost := s.o R.aoLost = 1
    all [ put R.startNs s.now, put R.startFail 0, put R.resetCause (s.o R.porCause),
          put R.aoBase (s.o R.aoBase + env.aoTicks),
          if lost then .skip else put R.siteOff (s.o R.siteOff + (env.aoTicks : Int) * 1000000000 / 32768),
          put R.aoPowerLost (ofBool lost), put R.aoLost 0,
          if lost then all [ put R.rtcValid 0, bump R.unwatchedCount, put R.unwatchedS 4294967295, put R.unwatchDue 1 ]
          else .skip,
          stepBegins 1 env ]

/-- The power-on run of island i (R378–R381). -/
def startStocktake (env : StartEnv) (i : Nat) : Script :=
  .dyn fun s =>
    let want := (s.o (R.stSigExpect i)).toNat
    let sig := match env.badSigs.find? fun x => x.1.val = i with | some x => x.2 % 2 ^ 64 | none => want
    let pass := sig = want
    all [ put (R.stSig i) sig, put (R.stRunUs i) (env.runUs.getD i 0), put (R.stFrame i) 0, stocktakeShown i pass,
          put (R.islandState i) (if pass then 1 else 5), event R.stEventQueue 0xD0 i (if pass then 1 else 2),
          if pass then .skip else startFails 3 ]

/-- Whether a failure of step 3 ends the start at step 6 (R74). -/
def State.startHalts (s : State) : Bool := [iCA, iPL, iSF, iMT].any fun i => bit (s.o R.stFailMask) i

/-- Whether two units can be a pair (R311, R6, M13, M14). -/
def State.fits (s : State) (p : PartnerId) : Bool :=
  (p.partCode : Int) = s.o R.partCode && (p.siliconRev : Int) = s.o R.siliconRev
    && (p.imageVer : Int) = s.o R.residentFw && (p.profile : Int) = s.sh R.profile && (p.lcState : Int) = s.lc
    && (p.unitId : Int) != s.sh R.unitId

/-- What a partner's answer says of it. -/
def partnerShown (p : PartnerId) : Script :=
  all [ put R.partnerRole p.role, put R.partnerSerial p.serial, put R.partnerImage p.imageVer, put R.pClaim (ofBool p.claimHigh) ]

/-- An alarm is raised (4601h.03). -/
def alarm (b : Nat) : Script := .dyn fun s => put R.pairAlarm (withBit (s.o R.pairAlarm) b true)

/-- This unit joins its partner (R312). -/
def beginJoin : Script := all [ setRole roleSuspect, put R.claim 0, put R.joining 1, put R.joinCnt 0 ]

/-- A partner that does not fit (R6, R311, M13, M14). -/
def misfit (p : PartnerId) : Script :=
  .dyn fun s =>
    all [ put R.incompat 1, alarm 2, setRole roleSolo,
          if (p.profile : Int) != s.sh R.profile then refuse 13 0x1010 .mirror
          else if (p.lcState : Int) != s.lc then refuse 14 0x1010 .mirror else .skip ]

/-- A SOLO unit claims while its partner's CLAIM reads low (R310, R311). -/
def claimSolo (partnerClaim : Bool) : Script := if partnerClaim then .skip else put R.claim 1

/-- PAIR_NEGOTIATION (R311): the outcome with an answer, or without one.
[DEDUCED, log 34] -/
def negotiate (p : Option PartnerId) (partnerClaim : Bool) : Script :=
  .dyn fun s =>
    if s.o R.pairOn != 1 then setRole roleSolo
    else match p with
      | none => .seq (setRole roleSolo) (claimSolo partnerClaim)
      | some p =>
        .seq (partnerShown p)
          (if !s.fits p then .seq (misfit p) (claimSolo (partnerClaim || p.claimHigh))
           else if p.starting then
             if s.sh R.unitId = 0 then .seq (setRole roleActive) (put R.claim 1) else beginJoin
           else if p.role = 1 || p.role = 3 || (p.role = 0 && p.claimHigh) then beginJoin
           else .seq (setRole roleSolo) (claimSolo (partnerClaim || p.claimHigh)))

/-- Steps 1 to 5. A unit whose images both fail stays in step 2.
[DEDUCED, log 15] -/
def startSteps (env : StartEnv) : Script :=
  all [
    startAo env, stepBegins 2 env, bootStart,
    .dyn fun s => onlyIf (s.o R.bootImage != 0)
      (all [
        stepBegins 3 env, put R.stocktakeState 1, each (upTo 12) (startStocktake env), put R.stocktakeState 0,
        stepBegins 4 env,
        .dyn fun s => if bit (s.o R.stFailMask) iMT then put R.mtState 1
          else all [ put R.mtWhole 1, showMetrologyKey, mtRecover,
                     .dyn fun s => if s.o R.mtState = 2 then put (R.islandState iMT) 2
                       else .seq (startFails 4) (put (R.islandState iMT) 5) ],
        .dyn fun s => stepBegins 5 env |>.seq (folioStart (s.o R.aoPowerLost = 1)),
        .dyn fun s => put R.pairOn (s.sh R.pairEnable),
        stepBegins 6 env ]) ]

end Sys2Proof.Machine
end

