-- ==== Sys2Proof/Machine/Time.lean ====
section
/-!
DEFINITION. Site time and the alignment of frames (spec/01_islands_and_frames.md R20, R22–R24).
-/

namespace Sys2Proof.Machine

/-! ## Sources (R22, R23) -/

/-- The code of a source (2010h.03). -/
def srcOf : TimeSrc → Nat
  | .partner => 1 | .ptp => 2 | .fsync => 3

/-- Whether a source can be taken: PTP and FSYNC once they have come and are not lost, the partner by a unit that stands
by or joins, while the pair link is up. -/
def State.timeAvailable (s : State) (c : Nat) : Bool :=
  match c with
  | 1 => (s.role = roleStandby || s.role = roleSuspect) && s.o R.pairLinkState != 0 && !bit (s.o R.srcLost) 1
  | 2 => s.a R.ptpPort != 0 && !bit (s.o R.srcLost) 2
  | 3 => !bit (s.o R.srcLost) 3
  | _ => false

/-- The source that R22 selects: the first available of the order, the partner on a STANDBY unit; 0 holdover. -/
def State.timePick (s : State) : Nat :=
  let ord := (s.a R.timeSourceOrder).toNat
  let l := ([ord / 4096 % 16, ord / 256 % 16, ord / 16 % 16].takeWhile (· != 0))
  if s.role = roleStandby then (if s.timeAvailable 1 then 1 else 0)
  else (l.find? s.timeAvailable).getD 0

/-- The source in use follows the selection; a change starts the slewing anew (R23, R24). -/
def timeSelect : Script :=
  .dyn fun s =>
    let c := s.timePick
    onlyIf (s.o R.timeSource != (c : Int))
      (all [ put R.timeSource c, put R.lockFrames 0,
             put R.syncState (if c = 0 then (if s.o R.syncState = 0 then 0 else 3) else 1) ])

/-- Site time moves by a measured error.
[DESIGN CHOICE, log 7] -/
def siteMoves (by_ : Int) : Script := .dyn fun s => put R.siteOff (s.o R.siteOff + by_)

/-- How far the present instant lies after the instant that R24 aligns PFBs to, in ns, within half a frame. -/
def State.phaseErr (s : State) : Int :=
  let e := (s.site - s.a R.framePhase) % 1000000
  if 500000 < e then e - 1000000 else e

/-- FRAME_NO by the first case of R20. -/
def State.frameBySite (s : State) : Int := (s.site - s.a R.framePhase) / 1000000 % 4294967296

/-- The first lock after the RTC was invalid (R67, R256, R361). -/
def firstLock : Script :=
  .dyn fun s =>
    all [ put R.rtcValid 1,
          if s.o R.unwatchDue = 1 then
            .seq (put R.unwatchDue 0) (put R.unwatchedS (max 0 ((s.site - s.o R.aoLostNs) / 1000000000)))
          else .skip,
          each (upTo 16) fun t => bsOffTime t s.site ]

/-- PTP_MESSAGE (R22): a Sync or a Follow_Up gives the master's origin, the response to the delay request that the
controller then sends gives the offset; messages of another port or domain are not its own.
[DESIGN CHOICE, log 7] -/
def execPtpMessage (port domain : Nat) (m : PtpMsg) (s : State) : Host.Outcome State Fault Refusal :=
  doesIf (fun s => s.a R.ptpPort != 0 && (port : Int) = s.a R.ptpPort && (domain : Int) = s.a R.ptpDomain
      && s.island iNW = 2 && !s.injectsArg 175 2)
    (.dyn fun s =>
      let request := put R.ptpT3 s.site
      match m with
      | .sync two o =>
        all [ put R.ptpSyncNs s.now, put R.ptpT2 s.site, if two then .skip else .seq (put R.ptpT1 o) request,
              put R.srcLost (withBit (s.o R.srcLost) 2 false), timeSelect ]
      | .followUp o => .seq (put R.ptpT1 o) request
      | .delayResp t4 =>
        let off := ((s.o R.ptpT2 - s.o R.ptpT1) - ((t4 : Int) - s.o R.ptpT3)) / 2
        onlyIf (s.timePick = 2 && 0 ≤ s.o R.ptpSyncNs) (siteMoves (-off))) s

/-- FSYNC_EDGE (R22): a rising edge marks a PFB. -/
def execFsyncEdge (s : State) : Host.Outcome State Fault Refusal :=
  doesIf (fun s => !s.injectsArg 175 3)
    (.dyn fun s => all [
      put R.fsyncSeen 1, put R.fsyncMiss 0, put R.srcLost (withBit (s.o R.srcLost) 3 false), timeSelect,
      .dyn fun s => onlyIf (s.o R.timeSource = 3) (siteMoves (-s.phaseErr)) ]) s

/-- Whether a source's loss holds (R23), or an injection at point 175 substitutes it (R388). -/
def State.timeLost (s : State) (t : TimeSrc) : Bool :=
  s.injectsArg 175 (srcOf t) ||
  match t with
  | .partner => s.o R.pairLinkState = 0
  | .ptp => 0 ≤ s.o R.ptpSyncNs && decide (3000000 ≤ s.usSince (s.o R.ptpSyncNs))
  | .fsync => 3 ≤ s.o R.fsyncMiss

/-- A source is lost; the next of the order follows, or holdover. -/
def loseSource (t : TimeSrc) : Script :=
  .dyn fun s => .seq (put R.srcLost (withBit (s.o R.srcLost) (srcOf t) true)) timeSelect

/-- TIME_SOURCE_LOST (R23). -/
def execTimeSourceLost (t : TimeSrc) (s : State) : Host.Outcome State Fault Refusal :=
  doesIf (fun s => !bit (s.o R.srcLost) (srcOf t) && s.timeLost t) (loseSource t) s

/-! ## At the PFB (R24) -/

/-- PFB_TIME, PHASE_ERROR and SYNC_STATE; the CA clock is slewed by at most 50 ns a frame towards the target. A missing
FSYNC edge counts while edges are expected.
[DESIGN CHOICE, log 7] -/
def clockPfb : Script :=
  .dyn fun s =>
    let miss := s.o R.fsyncSeen != 1 && !bit (s.o R.srcLost) 3
    all [
      if miss then .seq (bump R.fsyncMissed) (bump R.fsyncMiss) else .skip,
      put R.fsyncSeen 0, timeSelect,
      .dyn fun s =>
        let e := s.phaseErr
        let near := decide (-1000 ≤ e ∧ e ≤ 1000)
        let n := if near then min 16 (s.o R.lockFrames + 1) else 0
        all [ put R.pfbTime s.site, put R.phaseError e,
              if s.o R.timeSource = 0 then .skip
              else all [ put R.lockFrames n, put R.syncState (if n = 16 then 2 else 1), siteMoves (-(clamp (-50) 50 e)),
                         if n = 16 then firstLock else .skip ] ] ]

/-- FRAME_STEP (R24): the phase error exceeds 100 µs, every output is IDLE, ENDED or FAULT and no leg is CLOSED. The
frame has run its 500 samples; the gap begins, inputs accepted in it wait for sample 10 of the frame after it, and it
lasts until the next aligned instant, at which POWER_FRAME_BOUNDARY follows.
[DESIGN CHOICE, log 6] -/
def execFrameStep (arrivals : List (Src × Input)) (s : State) : Host.Outcome State Fault Refusal :=
  doesIf (fun s => s.next.val = 500 && s.o R.inGap != 1 && decide (100000 < s.phaseErr.natAbs) && s.o R.timeSource != 0
      && (upTo s.nOut).all (fun k => s.os k = osIdle || s.os k = osEnded || s.os k = osFault)
      && (upTo s.nCh).all fun n => s.cs n != csClosed)
    (all [ put R.inGap 1, put R.gatesLow 1,
           each arrivals fun x => accept x.1 0 x.2,
           .dyn fun s => put R.now (s.now + (s.a R.framePhase - s.site) % 1000000) ]) s

/-- FRAME_NO at a PFB (R20): one more, or recomputed after a gap, with the stamps that waited (R24). -/
def frameNumber : Script :=
  .dyn fun s =>
    if s.o R.inGap = 1 then
      let f := s.frameBySite
      all [ put R.frameNo f, put R.inGap 0, put R.gatesLow 0,
            upd fun d => { d with stamps := d.stamps.map fun x => { x with frame := f.toNat } } ]
    else put R.frameNo (nextFrame s.frame)

end Sys2Proof.Machine
end

