-- ==== Sys2Proof/Machine/Pair.lean ====
section
/-!
DEFINITION. Redundant pair operation (spec/15_pair_operation.md R307–R330): the messages of the pair link, comparison and
sums, takeover, swap, joining, and what the unit knows of its own health.
-/

namespace Sys2Proof.Machine

/-! ## Lanes (R315) -/

/-- Whether lane `i` carries a good copy: an injection at point 163 spoils one (R388). -/
def State.laneGood (s : State) (i : Nat) (c : Fin 3) : Bool := c.val = 1 && !s.injectsArg 163 i

/-- One lane's part of a message: a copy that fails counts, and a change of the lane is told (B4h, LANE_DOWN).
[DESIGN CHOICE, log 67] -/
def laneTake (i : Nat) (c : Fin 3) : Script :=
  .dyn fun s =>
    let bad := !s.laneGood i c
    let err := if i = 0 then R.laneErrA else R.laneErrB
    all [ if bad && c.val != 0 then bump err else .skip,
          if bad then .seq (health 7) (alarm 3) else .skip,
          if s.o (R.laneBad i) = ofBool bad then .skip
          else .seq (put (R.laneBad i) (ofBool bad)) (event R.pairEventQueue 0xB4 i (if bad then 1 else 0)) ]

/-- A message on both lanes, and its effect where a copy passes. -/
def onLanes (l : Lanes) (eff : Script) : Script :=
  .dyn fun s =>
    all [ laneTake 0 l.a, laneTake 1 l.b,
          .dyn fun s => put R.pairLinkState (2 - s.o (R.laneBad 0) - s.o (R.laneBad 1)),
          if s.laneGood 0 l.a || s.laneGood 1 l.b then eff else .skip ]

/-- A message of the pair link that reaches a unit of a pair which has started and meets a condition. -/
def message (l : Lanes) (c : State → Bool) (eff : Script) (s : State) : Host.Outcome State Fault Refusal :=
  doesIf (fun s => s.o R.pairOn = 1 && decide (6 ≤ s.o R.startPhase) && s.island iPK != 0)
    (onLanes l (.dyn fun s => onlyIf (c s) eff)) s

/-! ## Edges and sums (R317, R318) -/

/-- The edges of one gate of a channel in the 8,000 ticks from `w`, as offsets from it: h changes only where two periods
do not join (R133). -/
def gateEdges (l : List Edge) (w : Nat) (high : Bool) : List Nat :=
  let on := l.filter fun e => e.lFall < e.hFall
  let t := on.flatMap fun e =>
    let joinsPrev := on.any fun x => x.hFall = e.lFall
    let joinsNext := on.any fun x => x.lFall = e.hFall
    if high then (if joinsPrev then [] else [e.hRise]) ++ (if joinsNext then [] else [e.hFall])
    else (if joinsPrev then [] else [e.lFall]) ++ (if joinsNext then [] else [e.lRise])
  (sortBy id (t.filter fun x : Int => (w : Int) ≤ x && x < (w : Int) + 8000)).map fun x => (x - (w : Int)).toNat

/-- The bytes of one gate in a hash: the number of edges and their offsets. -/
def gateBytes (l : List Nat) : List Nat := l.length :: l.flatMap (leBytes 2)

/-- The hash of group g in sample `sm` (R318). -/
def State.groupHash (s : State) (sm g : Nat) : Nat :=
  crc32c ((upTo 16).flatMap fun i =>
    let n := 16 * g + i
    let es := if s.modulates n then s.d.edges.filter (·.ch = n) else []
    (s.cs n).toNat :: (gateBytes (gateEdges es (8000 * sm) true) ++ gateBytes (gateEdges es (8000 * sm) false)))

/-- The locks of the SAMPLE message: the 24 OUT_LOCK[0] bits (R345). -/
def State.lockBits (s : State) : Nat := orAll ((upTo 24).map fun k => if bit (s.o (R.outLock k)) 0 then 2 ^ k else 0)

/-- Step 7's message (R315), and the gates held low since the start of driving up to their next edge (R323). -/
def sendSample (sm : Nat) : Script :=
  .dyn fun s =>
    if s.o R.pairOn != 1 then .skip
    else
      let hs := (upTo 12).map (s.groupHash sm)
      let sent := if s.injectsArg 163 3 then setAt hs (s.o (R.injValue 163)).toNat (hs.getD (s.o (R.injValue 163)).toNat 0 ^^^ 1)
        else hs
      all [ upd fun d => { d with hashes := (d.hashes ++ [(s.frame, sm, hs)]).drop (d.hashes.length - 3) },
            if s.injectsArg 163 2 then .skip
            else send (.pair 1 ([(s.frame : Int), (sm : Int), s.o R.selFb, s.o R.sfState, s.o R.scoCut, (s.lockBits : Int)]
              ++ sent.map Int.ofNat)),
            each ((upTo s.nCh).filter fun n => s.o (R.chHold n) != 0) fun n =>
              let es := s.d.edges.filter (·.ch = n)
              let next := fun (b : Nat) => (gateEdges es (8000 * sm) (b = 0)).isEmpty
              put (R.chHold n) ((s.o (R.chHold n)).toNat &&& ((if next 0 then 1 else 0) + (if next 1 then 2 else 0)) : Nat) ]

/-- Keys of the catalogue's RWS objects in ascending order. -/
def rwsKeys : List Key :=
  (blocks.filter (·.base < 0x10000)).flatMap fun b => (upTo b.count).flatMap fun i =>
    (b.rows.filter fun r => r.acc = .rws).flatMap fun r => (upTo r.cnt).map fun j => (b.base + i) * 256 + r.sub + j

/-- A signed number as `n` bytes, least significant first. -/
def intBytes (n : Nat) (v : Int) : List Nat := leBytes n (v % (256 ^ n : Nat)).toNat

/-- STATE_SUM (R317). UNIT_ID, which must differ between partners, is left out.
[DESIGN CHOICE, log 67] -/
def State.sumOf (s : State) : Nat :=
  crc32c (
    leBytes 4 s.frame
    ++ (rwsKeys.filter (· != R.unitId)).flatMap (fun k => intBytes (tyOf k).bytes (s.a k))
    ++ (upTo 192).flatMap (fun n => (s.cs n).toNat ::
        (intBytes 5 (s.o (R.chZ1 n)) ++ intBytes 5 (s.o (R.chZ2 n)) ++ intBytes (tyOf (R.retryCount n)).bytes (s.o (R.retryCount n))
          ++ intBytes (tyOf (R.cbcCnt n)).bytes (s.o (R.cbcCnt n))))
    ++ (upTo 24).flatMap (fun k => [R.vlZ1 k, R.vlZ2 k, R.pvP k, R.pvV k, R.pvA k, R.piP k, R.piV k, R.piA k].flatMap
        fun x => intBytes 8 (s.o x))
    ++ Config.shelverBytes (match s.d.shRes with | some r => r.hold.map Int.ofNat ++ r.prices | none => [])
    ++ (upTo 12).flatMap (fun e => intBytes 4 (s.o (R.handover e)))
    ++ leBytes 4 (s.o R.seqNo % 4294967296).toNat)

/-- STATE_SUM at a PFB, and the CHECKSUM message.
[DEDUCED, log 34] -/
def sumPfb : Script :=
  .dyn fun s =>
    onlyIf (s.o R.pairOn = 1)
      (let x : Int := (s.sumOf : Nat)
       .seq (put R.stateSum x) (send (.pair 3 [(s.frame : Int), x])))

/-! ## Claims and takeover (R310, R320–R323) -/

/-- CLAIM rises for a takeover of cause c (R321): a running segment is abandoned first. -/
def claimRises (c : Int) : Script :=
  all [ abandonSegment, put R.claim 1, put R.takeCause c, setRole roleSwapping ]

/-- This unit is not trusted, or has lost ownership (R310): it lowers CLAIM and waits for a rejoin.
[DEDUCED, log 34] -/
def suspect : Script := all [ setRole roleSuspect, put R.claim 0, put R.joining 0, put R.gatesLow 0 ]

/-- A role that takes effect at the coming PFB. -/
def roleAt (r : Int) : Script := put R.roleDue (r + 1)

/-- A partner's lost heartbeat (R321, R324). -/
def execHeartbeatLost (s : State) : Host.Outcome State Fault Refusal :=
  doesIf (fun s => s.o R.pairOn = 1 && 0 ≤ s.o R.pairSampleNs && decide (16000 ≤ s.now - s.o R.pairSampleNs)
      && ((s.role = roleStandby && s.o R.diagRun != 2) || s.role = roleActive || s.role = roleSuspect))
    (.dyn fun s =>
      .seq (put R.partnerRole 255)
        (if s.role = roleStandby then
           .seq abandonSegment
             (if (upTo 8).any fun i => bit (s.o R.health) (i + 1) then .seq (put R.diagRun 2) (put R.diagOwn 0)
              else claimRises 1)
         else if s.role = roleActive then all [ roleAt roleSolo, alarm 6, put R.pairSampleNs (-1) ]
         else .seq (put R.pairSampleNs (-1)) (put R.joinCnt 0))) s

/-- Gates whose pulse in progress has less than MIN_PULSE left at tick w (R323). -/
def State.shortPulses (s : State) (n w : Nat) : Nat :=
  let on := s.d.edges.filter fun e => e.ch = n && e.lFall < e.hFall
  let mp := s.a (R.minPulse n)
  let w : Int := w
  let h := on.any fun e => e.hRise ≤ w && w < e.hFall && e.hFall - w < mp
  let l := !(on.any fun e => e.lFall ≤ w && w < e.lRise) && on.any fun e => w < e.lFall && e.lFall - w < mp
  (if h then 1 else 0) + (if l then 2 else 0)

/-- TAKEOVER_DRIVE_START (R316, R323): the first sample boundary, but a PFB, at which SEL_FB reads 1. What this unit
received itself and saw no stamp for is stamped afresh. -/
def execTakeoverDriveStart (s : State) : Host.Outcome State Fault Refusal :=
  doesIf (fun s => s.o R.pairOn = 1 && s.role = roleSwapping && s.o R.claim = 1 && s.o R.takeCause != 0
      && s.o R.selFb = 1 && decide (1 ≤ s.next.val) && decide (s.next.val < 500))
    (.dyn fun s => all [
      bump R.takeovers, put R.takeoverNs (s.now - s.o R.pairSampleNs), put R.takeoverFrame s.frame,
      event R.pairEventQueue 0xB1 255 (s.o R.takeCause).toNat, alarm 1, put R.takeCause 0, roleAt roleActive,
      upd fun d => { d with ownRx := [] }, each s.d.ownRx sense,
      each (upTo s.nCh) fun n => put (R.chHold n) (if s.modulates n then s.shortPulses n (8000 * s.sample) else 0) ]) s

/-- SEL_FB_UNEXPECTED (R320): a STANDBY unit reads 1 in two consecutive samples without having claimed. -/
def execSelFbUnexpected (s : State) : Host.Outcome State Fault Refusal :=
  doesIf (fun s => s.o R.pairOn = 1 && s.role = roleStandby && 2 ≤ s.o R.selHigh && s.o R.claim = 0)
    (.seq (claimRises 4) (alarm 7)) s

/-- SEL_FB_LOST (R320): an ACTIVE unit reads 0 in two consecutive samples while the partner's CLAIM reads low. It lowers
and raises CLAIM; if that has not helped two samples later, it yields and proceeds as a CA reset. -/
def execSelFbLost (s : State) : Host.Outcome State Fault Refusal :=
  doesIf (fun s => s.o R.pairOn = 1 && s.role = roleActive && 2 ≤ s.o R.selLow && s.o R.pClaim = 0
      && (s.o R.reclaimNs < 0 || decide (4000 ≤ s.now - s.o R.reclaimNs)))
    (.dyn fun s => if s.o R.reclaimNs < 0 then put R.reclaimNs s.now else .seq (put R.reclaimNs (-1)) (caResets 5)) s

/-- PAIR_YIELD (R322): the standby claims as soon as the message arrives. -/
def execPairYield (l : Lanes) (s : State) : Host.Outcome State Fault Refusal :=
  message l (fun s => s.role = roleStandby) (claimRises 3) s

/-! ## Comparison (R315, R318, R319, R345) -/

/-- The partner's SCO states (R345): adopted by the unit that holds gate ownership; differences are timed.
[DEDUCED, log 34] -/
def takeSco (m : SampleMsg) : Script :=
  .dyn fun s =>
    let differ := (m.sfState : Int) != s.o R.sfState || m.outLocks != s.lockBits
    let old := (s.o R.sfPartnerLocks).toNat
    all [
      if s.onBus then
        .seq (each ((upTo 24).filter fun k => m.outLocks.testBit k && !old.testBit k) fun k => trip k 16 0 true)
          (if m.sfState = 2 && s.o R.sfPartner != 2 then endsNext 255 else .skip)
      else .skip,
      put R.sfPartner m.sfState, put R.sfPartnerCut m.scoCut, put R.sfPartnerLocks m.outLocks,
      put R.sfDiffNs (if differ then (if 0 ≤ s.o R.sfDiffNs then s.o R.sfDiffNs else s.now) else -1) ]

/-- The comparison of one sample on the standby; the third consecutive mismatch starts R319's procedure. -/
def compareSample (m : SampleMsg) : Script :=
  .dyn fun s =>
    match s.d.hashes.find? fun x => x.1 = m.frame && x.2.1 = m.sample with
    | none => .skip
    | some own =>
      let mask := orAll ((upTo 12).map fun g => if own.2.2.getD g 0 = m.hashes.getD g 0 then 0 else 2 ^ g)
      if mask = 0 then .seq (put R.pairMis 0) (put R.pairMisMask 0)
      else
        let n := s.o R.pairMis + 1
        let tot := (s.o R.pairMisMask).toNat ||| mask
        let first := if n = 1 then ((m.frame * 500 + m.sample : Nat) : Int) else s.o R.pairMisAt
        all [ bump R.mismatchCount, put R.pairMisFrame s.frame, put R.pairMis n, put R.pairMisMask tot, put R.pairMisAt first,
              if n = 3 && s.o R.diagRun = 0 then
                all [ bump R.mismatchEvents, event R.pairEventQueue 0xB2 255 tot,
                      send (.pair 4 [first / 500, first % 500, (tot : Int)]),
                      put R.diagRun 1, put R.diagOwn 0, put R.diagPart 0 ]
              else .skip ]

/-- PAIR_SAMPLE (R315, R319, R321): the heartbeat; without the twelve hashes it is not valid. -/
def execPairSample (m : SampleMsg) (l : Lanes) (s : State) : Host.Outcome State Fault Refusal :=
  message l (fun _ => m.hashes.length = 12)
    (.dyn fun s => all [ put R.pairSampleNs s.now, takeSco m, if s.role = roleStandby then compareSample m else .skip ]) s

/-- PAIR_MISMATCH (R319): the active unit holds every gate low and diagnoses itself. -/
def execPairMismatch (frame sample mask : Nat) (l : Lanes) (s : State) : Host.Outcome State Fault Refusal :=
  message l (fun s => s.role = roleActive && s.o R.diagRun = 0)
    (all [ put R.gatesLow 1, put R.diagRun 1, put R.diagOwn 0, put R.diagPart 0, put R.pairMisAt (frame * 500 + sample : Nat),
           put R.pairMisMask mask, .dyn fun s => put R.pairMisFrame s.frame, bump R.mismatchEvents,
           event R.pairEventQueue 0xB2 255 mask ]) s

/-- FAST_DIAG_DONE (R319, R321): the unit's own verdict, which it sends after a mismatch; after a lost heartbeat a
unit that passes claims. -/
def execFastDiagDone (pass : Bool) (engine : Option Isl) (s : State) : Host.Outcome State Fault Refusal :=
  doesIf (fun s => s.o R.diagRun != 0 && s.o R.diagOwn = 0)
    (.dyn fun s =>
      let e : Int := match engine with | some x => (x.val : Int) | none => 15
      all [ put R.diagEngine e, if pass then .skip else health 1,
            if s.o R.diagRun = 2 then .seq (put R.diagRun 0) (if pass && s.role = roleStandby then claimRises 1 else .skip)
            else .seq (put R.diagOwn (if pass then 1 else 2)) (send (.pair 5 [ofBool (!pass), e])) ]) s

/-- PAIR_VERDICT (R319): the partner's verdict. -/
def execPairVerdict (fault : Bool) (l : Lanes) (s : State) : Host.Outcome State Fault Refusal :=
  message l (fun s => s.o R.diagRun = 1) (put R.diagPart (if fault then 2 else 1)) s

/-- The decision of R319, at the first sample boundary at which both verdicts are held. -/
def pairDecide : Script :=
  .dyn fun s =>
    onlyIf (s.o R.diagRun = 1 && s.o R.diagOwn != 0 && s.o R.diagPart != 0)
      (let own := s.o R.diagOwn = 2
       let part := s.o R.diagPart = 2
       let done := all [ put R.diagRun 0, put R.diagOwn 0, put R.diagPart 0, put R.pairMis 0, put R.pairMisMask 0 ]
       if s.role = roleActive then
         all [ done, if own && !part then suspect
               else all [ put R.gatesLow 0, put R.partnerRole 4, if !own && !part then alarm 5 else .skip,
                          if own && s.o R.diagEngine < 12 then engineFails (s.o R.diagEngine).toNat else .skip ] ]
       else if s.role = roleStandby then .seq done (if part && !own then claimRises 2 else suspect)
       else done)

/-! ## Mirroring, sums and joining (R312–R317) -/

/-- Whether two received inputs come from the same sender, so that they can be compared (R328). -/
def sameSender : Input → Input → Bool
  | .aux l e _, .aux l' e' _ => l = l' && e = e'
  | .canFrame p f, .canFrame p' f' => p = p' && f.id = f'.id
  | .feReport r .., .feReport r' .. => r = r'
  | .mplReply a .., .mplReply a' .. => a = a'
  | .vehicle k _, .vehicle k' _ => k = k'
  | .inst k .., .inst k' .. => k = k'
  | _, _ => false

/-- How far a stamp lies ahead of the sample under way, in samples. -/
def State.stampAhead (s : State) (frame sample : Nat) : Int :=
  let df : Int := ((frame : Int) - s.frame) % 4294967296
  500 * (if df < 2147483648 then df else df - 4294967296) + sample - s.sample

/-- A value for an island that came after its stamp (R18): the island faults. -/
def crossOverrun (pl : Bool) : Script := .seq (bump R.crossOverrun) (put (R.islandState (if pl then iPL else iCA)) 5)

/-- PAIR_MIRROR (R313, R316, R328): the owner's stamp governs; the unit's own reception is compared with it.
[DEDUCED, log 8] -/
def execPairMirror (frame sample seq : Nat) (src : Src) (inp : Input) (l : Lanes) (s : State) :
    Host.Outcome State Fault Refusal :=
  message l (fun s => s.role = roleStandby || (s.role = roleSuspect && s.o R.joining = 1))
    (.dyn fun s =>
      let twin := s.d.ownRx.find? (sameSender inp)
      all [
        put R.seqNo (seq + 1 : Nat),
        (match twin with
         | none => .skip
         | some x => .seq (upd fun d => { d with ownRx := d.ownRx.erase x })
             (if x = inp then .skip else .seq (bump R.rxDiff) (health 8))),
        if 0 < s.stampAhead frame sample then
          upd fun d => { d with stamps := d.stamps ++ [⟨frame, sample, srcCode src, srcInst src, 0, seq, src, inp⟩] }
        else if s.role = roleStandby then crossOverrun false
        else .skip ]) s

/-- The two sums of a frame differ for the standby's second time: it becomes SUSPECT (R317). -/
def execPairChecksum (frame sum : Nat) (l : Lanes) (s : State) : Host.Outcome State Fault Refusal :=
  message l (fun s => (frame : Int) = s.o R.frameNo)
    (.dyn fun s =>
      if (sum : Int) = s.o R.stateSum then
        .seq (put R.sumBad 0) (if s.role = roleSuspect || s.role = roleSolo then put R.joinCnt (min 16 (s.o R.joinCnt + 1)) else .skip)
      else
        .seq (put R.joinCnt 0)
          (if s.role = roleStandby || s.role = roleActive then
             all [ bump R.sumMismatches, put R.sumBad (s.o R.sumBad + 1), event R.pairEventQueue 0xB3 255 0, health 6,
                   if 1 ≤ s.o R.sumBad then
                     .seq (alarm 4) (if s.role = roleStandby then suspect else put R.partnerRole 4)
                   else .skip ]
           else .skip)) s

/-- Objects that a joining unit takes from its partner (R312): placement, outputs, converters and their registers, battery
estimators, links and fields that are mirrored, and every configuration but UNIT_ID. -/
def joinable (copy : Fin 3) (k : Key) : Bool :=
  let ix := k / 256
  if copy.val != 0 then ix < 0x10000 && k != R.unitId
  else decide (0x2100 ≤ ix ∧ ix < 0x3800) || decide (0x3C00 ≤ ix ∧ ix < 0x4600)
    || decide (0x10100 ≤ ix ∧ ix < 0x10700) || decide (0x10C00 ≤ ix ∧ ix < 0x10F00) || decide (0x11000 ≤ ix ∧ ix < 0x11600)
    || (decide (0x4C40 ≤ ix ∧ ix < 0x4C80) && (k % 256 = 8 || k % 256 = 0x0B))
    || [R.seqNo, R.shValid, R.shDiscard, R.grid, R.dieReading].contains k

/-- A segment of the partner's state.
[DESIGN CHOICE, log 67]
[DEDUCED, log 38] -/
def takeSegment (g : JoinSeg) : Script :=
  match g with
  | .values l => each (l.filter fun x => joinable x.1 x.2.1) fun x =>
      match x.1.val with
      | 0 => put x.2.1 x.2.2
      | 1 => putA x.2.1 x.2.2
      | _ => putS x.2.1 x.2.2
  | .handovers l => upd fun d => { d with handovers := l }
  | .shelver r => upd fun d => { d with shRes := r }
  | .queue q ws o u n f => .one (.load q ⟨ws, o, u, n, f⟩)

/-- PAIR_JOIN_SEGMENT (R312). -/
def execPairJoinSegment (seg : JoinSeg) (l : Lanes) (s : State) : Host.Outcome State Fault Refusal :=
  message l (fun s => s.role = roleSuspect && s.o R.joining = 1) (takeSegment seg) s

/-- JOIN_COMPLETE (R310, R312): 16 consecutive matching sums; the roles change at the PFB, and the pair's identity is
kept (R362). -/
def execJoinComplete (s : State) : Host.Outcome State Fault Refusal :=
  doesIf (fun s => s.o R.pairOn = 1 && 16 ≤ s.o R.joinCnt && s.o R.incompat != 1
      && ((s.role = roleSuspect && s.o R.joining = 1) || s.role = roleSolo))
    (.dyn fun s =>
      all [ put R.joinCnt 0, put R.joinFrame s.frame,
            if s.role = roleSuspect then all [ put R.joining 0, roleAt roleStandby, put R.partnerRole 1 ]
            else .seq (roleAt roleActive) (put R.partnerRole 2),
            .dyn fun s => folioRequest 4 0 s.pairRecord [] ]) s

/-- PAIR_SECRET (R262): the traffic secrets of a connection, from engine to engine. -/
def execPairSecret (k : Out) (secret : Nat) (l : Lanes) (s : State) : Host.Outcome State Fault Refusal :=
  message l (fun s => !s.drives) (all [ put (R.tlsSecret k) secret, put (R.tlsUp k) 1, put (R.tcpOpen k) 1 ]) s

/-- PARTNER_APPEARS (R311): a SOLO unit keeps listening; a partner that fits joins it, another raises the alarm. -/
def execPartnerAppears (id : PartnerId) (s : State) : Host.Outcome State Fault Refusal :=
  doesIf (fun s => s.o R.pairOn = 1 && decide (7 ≤ s.o R.startPhase) && s.role = roleSolo)
    (.dyn fun s => .seq (partnerShown id)
      (if s.fits id then .seq (put R.incompat 0) (put R.joinCnt 0) else misfit id)) s

/-- A write to REJOIN takes effect (R312, R328): a SUSPECT unit joins again. -/
def applyRejoin : Script :=
  .dyn fun s =>
    onlyIf (s.role = roleSuspect)
      (all [ put R.joining 1, put R.joinCnt 0, put R.sumBad 0,
             put R.health ((s.o R.health).toNat &&& (0xFFFFFFFF - 0x32) : Nat) ])

/-- Whether the cause of an alarm has gone (4600h.08). -/
def State.alarmGone (s : State) (b : Nat) : Bool :=
  match b with
  | 7 => !(s.role = roleStandby && s.o R.selFb = 1)
  | 6 => s.o R.partnerRole != 255
  | 5 => s.o R.partnerRole != 4
  | 4 => s.o R.sumBad = 0
  | 3 => s.o (R.laneBad 0) = 0 && s.o (R.laneBad 1) = 0
  | 2 => s.o R.incompat != 1
  | _ => true

/-- A write to ALARM_CLEAR takes effect. -/
def applyAlarmClear : Script :=
  .dyn fun s => put R.pairAlarm (((s.o R.pairAlarm).toNat &&&
    orAll ((upTo 8).map fun b => if s.alarmGone b then 0 else 2 ^ b) : Nat) : Int)

/-! ## Planned swap (R326, R327) -/

/-- A swap is requested. -/
def applySwapReq : Script := .dyn fun s => .seq (put R.swapWant 1) (put R.swapNs s.now)

/-- The end of a swap: SWAP_RESULT and event B5h (R330). -/
def swapEnds (r : Nat) : Script :=
  all [ put R.swapResult r, put R.swapWant 0, put R.swapRun 0, put R.swapPfb (-1), event R.pairEventQueue 0xB5 255 r ]

/-- Every output is IDLE, ENDED or FAULT. -/
def State.allIdle (s : State) : Bool :=
  (upTo s.nOut).all fun k => s.os k = osIdle || s.os k = osEnded || s.os k = osFault

/-- SWAP_DAILY_DUE (R326): the site time of day in SWAP_DAILY_S.
[DEDUCED, log 34] -/
def execSwapDailyDue (s : State) : Host.Outcome State Fault Refusal :=
  doesIf (fun s => s.o R.pairOn = 1 && s.role = roleActive && s.a R.swapDailyS != 4294967295
      && s.site / 1000000000 % 86400 = s.a R.swapDailyS && s.o R.swapDay != s.site / 86400000000000)
    (.dyn fun s => all [ put R.swapDay (s.site / 86400000000000), put R.swapNs s.now,
      put R.swapWant (if s.a R.swapIdleOnly = 1 && !s.allIdle then 2 else 1) ]) s

/-- What keeps a swap from its PFB on this unit (R326). -/
def State.swapReady (s : State) : Bool :=
  (s.o R.pairMisFrame < 0 || decide (1000 ≤ ((s.frame : Int) - s.o R.pairMisFrame) % 4294967296))
    && (if s.role = roleActive then s.o R.partnerRole = 2
        else s.role = roleStandby && !((upTo 8).any fun i => bit (s.o R.health) (i + 1)) && s.o R.stocktakeState != 3)

/-- SWAP_EXECUTE (R326, R327): at the swap PFB; the owner tells the standby, which raises CLAIM. -/
def execSwapExecute (s : State) : Host.Outcome State Fault Refusal :=
  doesIf (fun s => s.o R.pairOn = 1 && s.next.val = 0 && s.swapReady
      && (s.o R.swapWant = 1 || (s.role = roleStandby && s.o R.swapPfb = (s.frame : Int))))
    (.dyn fun s =>
      .seq (put R.swapWant 0)
        (if s.role = roleActive then all [ send (.pair 7 [(s.frame : Int)]), setRole roleSwapping, put R.swapRun 1 ]
         else all [ setRole roleSwapping, put R.swapRun 2, put R.claim 1, put R.takeCause 0 ])) s

/-- PAIR_SWAP_MSG (R327): the owner names the swap PFB. -/
def execPairSwapMsg (frame : Nat) (l : Lanes) (s : State) : Host.Outcome State Fault Refusal :=
  message l (fun s => s.role = roleStandby) (put R.swapPfb frame) s

/-- SWAP_LAPSED (R326): a request not met within 60 s. -/
def execSwapLapsed (s : State) : Host.Outcome State Fault Refusal :=
  doesIf (fun s => s.o R.swapWant = 1 && decide (60000000 ≤ s.usSince (s.o R.swapNs))) (swapEnds 2) s

/-- SWAP_CLAIM_FAILED (R327): by sample 10 the new owner's SEL_FB has not read 1; the old owner is still selected. -/
def execSwapClaimFailed (s : State) : Host.Outcome State Fault Refusal :=
  doesIf (fun s => s.role = roleSwapping && decide (10 ≤ s.sample)
      && ((s.o R.swapRun = 2 && s.o R.selFb != 1) || (s.o R.swapRun = 1 && s.o R.selFb = 1 && s.o R.pClaim = 0)))
    (.dyn fun s => .seq (if s.o R.swapRun = 2 then suspect else .seq (setRole roleActive) (put R.partnerRole 4)) (swapEnds 3)) s

/-- PAIR_FORWARD (R314, R326): a write that the standby accepted for the owner to stamp and mirror. -/
def execPairForward (index sub : Nat) (src : Src) (val : Int) (l : Lanes) (s : State) : Host.Outcome State Fault Refusal :=
  message l (fun s => (s.role = roleActive || s.role = roleSwapping) && index * 256 + sub = R.swapReq)
    (accept src 0 (.write src (index * 256 + sub) val)) s

/-! ## In every sample and at every PFB -/

/-- The partner's lines at a sample boundary (R310, R320, R327), and R319's decision. -/
def pairLines (selFb partnerClaim : Bool) : Script :=
  .dyn fun s =>
    if s.o R.pairOn != 1 then put R.selFb (ofBool selFb)
    else all [
      put R.selFb (ofBool selFb), put R.pClaim (ofBool partnerClaim),
      put R.selLow (if selFb then 0 else s.o R.selLow + 1), put R.selHigh (if selFb then s.o R.selHigh + 1 else 0),
      if selFb then put R.reclaimNs (-1) else .skip,
      if s.role = roleActive && !selFb && partnerClaim then suspect
      else if s.role = roleSwapping && s.o R.swapRun = 1 && !selFb then .seq (put R.claim 0) (roleAt roleStandby)
      else if s.role = roleSwapping && s.o R.swapRun = 2 && selFb then roleAt roleActive
      else .skip,
      pairDecide ]

/-- A CLOSED leg held by the owner (R329). -/
def ownTrack : Script :=
  .dyn fun s =>
    let held := s.onBus && (upTo s.nCh).any fun n => s.cs n = csClosed
    put R.ownClosedNs (if held then (if 0 ≤ s.o R.ownClosedNs then s.o R.ownClosedNs else s.now) else -1)

/-- A role change at a PFB (R21, R310): the one due, or the end of SWAPPING. -/
def rolePfb : Script :=
  .dyn fun s =>
    let swapped := (s.o R.swapRun = 2 && s.o R.selFb = 1) || (s.o R.swapRun = 1 && s.o R.selFb != 1)
    if s.role = roleSwapping then
      let r := if s.o R.selFb = 1 then roleActive else if s.o R.claim = 0 then roleStandby else roleSwapping
      all [ put R.roleDue 0, setRole r,
            if s.o R.swapRun != 0 && r != roleSwapping then
              (if swapped then
                 all [ bump R.swaps, put R.partnerRole (if r = roleActive then 2 else 1),
                       if s.o R.swapRun = 2 then put R.ownSwap 1 else .skip, swapEnds 1 ]
               else put R.swapRun 0)
            else .skip ]
    else if s.o R.roleDue = 0 then .skip
    else .seq (setRole (s.o R.roleDue - 1)) (put R.roleDue 0)

/-- The bits of HEALTH that clear after 1,000 frames without their cause, OWN_PATH_UNPROVEN, and UNDRIVEN_S (R328, R329);
a daily swap that waited for idle outputs is requested (R326). -/
def healthPfb : Script :=
  .dyn fun s =>
    let clear := [2, 3, 6, 7, 8].filter fun b => bit (s.o R.health) b
      && decide (1000 ≤ ((s.frame : Int) - s.o (R.healthLast b)) % 4294967296)
    let proven := s.o R.ownSwap = 1 && 0 ≤ s.o R.ownClosedNs && decide (1000000 ≤ s.usSince (s.o R.ownClosedNs))
    let und := if s.o R.pairOn != 1 || s.o R.selFb = 1 then s.now else s.o R.undrivenNs
    all [
      each clear fun b => .dyn fun s => put R.health (withBit (s.o R.health) b false),
      if proven then .dyn fun s => put R.health (withBit (s.o R.health) 9 false) else .skip,
      put R.undrivenNs und, put R.undrivenS ((s.now - und) / 1000000000),
      if s.o R.swapWant = 2 && s.allIdle then applySwapReq else .skip ]

end Sys2Proof.Machine
end

