-- ==== Sys2Proof/Machine/Stocktake.lean ====
section
/-!
DEFINITION. Stocktake and fault injection (spec/19_stocktake_and_injection.md R378–R392): requested runs, the rotating
partial run, injection points, their targets and the reactions they time, and permits.
-/

namespace Sys2Proof.Machine

/-! ## Requested runs (R381–R383) -/

/-- Whether an output is outside IDLE, ENDED and FAULT. -/
def State.busyOutputs (s : State) : Bool := !s.allIdle

/-- The mode-matrix entry that refuses a stocktake of the islands of a mask (M6, M12, M15, M16); 0 none. -/
def State.stRefusal (s : State) (mask : Nat) : Nat :=
  let five := [iCA, iPL, iSF, iVL, iMT].any fun i => mask.testBit i
  if s.role = roleSolo && five && s.busyOutputs then 6
  else if !(s.role = roleSolo || s.role = roleSuspect) then 12
  else if !(s.lc = 1 || s.lc = 4) then 15
  else if s.stocktaking || s.injecting then 16
  else 0

/-- Catalogue transports close without an answer: those that a predicate picks (R56). -/
def closeTransports (p : Inst → Bool) : Script :=
  upd fun d => { d with txns := d.txns.filter fun t => !p t.inst, assocs := d.assocs.filter fun a => !p (.udp a.num) }

/-- What a run does to the plant while it lasts (R383). -/
def stBegin (i : Nat) : Script :=
  .dyn fun s =>
    all [
      put R.stRunNs s.now, put (R.islandState i) 4, put R.stocktakeState 2,
      match i with
      | 0 => .seq (put R.apDown 1) (upd fun d => { d with txns := [], assocs := [] })
      | 1 => .seq channelsDisabled (put R.caRun 0)
      | 3 => .seq (each ((upTo 24).filter fun k => s.o (R.dcSessState k) != 0) fun k => put (R.dcSessState k) 2) mtDown
      | 4 => each (upTo 24) vlClose
      | 5 => closeTransports fun t => match t with | .mailbox => false | _ => true
      | 6 => .seq (put R.sfState 0) refreshLatches
      | 7 => put R.vaultState 0
      | 8 => put R.hkRuns 0
      | 9 => put R.pairLinkState 0
      | _ => .skip ]

/-- The islands of a request run one after another, in ascending code. -/
def stNext : Script :=
  .dyn fun s =>
    match (upTo 12).find? fun i => bit (s.o R.stMask) i with
    | some i => stBegin i
    | none => put R.stocktakeState 0

/-- A request takes effect at its stamp. -/
def applyStReq (mask : Nat) : Script := .seq (put R.stMask (mask % 4096 : Nat)) stNext

/-- Persisted slots and blobs reopen; others are empty (R383). -/
def vaultReopen : Script :=
  all [
    .dyn fun s => each (upTo 256) fun n => .seq (.seq (clearSlot n) (clearStage n))
      (match (s.folio s.vaultRegion n).pick with
       | some (b, _) => if b.vals.isEmpty then .skip else loadSlot n b.vals
       | none => .skip),
    .dyn fun s => each [1, 2, 3] fun x =>
      match (s.folio s.vaultRegion (256 + x)).pick with
      | some (b, _) => loadBlob x b.vals
      | none => put (R.blobState x) 0,
    .dyn fun s => put R.vaultState (if s.o R.dusGone = 1 then 2 else 1) ]

/-- What follows a run that passes (R383). -/
def stPassed (i : Nat) : Script :=
  match i with
  | 6 => all [ put (R.islandState iSF) 2, put R.sfState 1, latch 255 17 0 255 true ]
  | 7 => .seq (put (R.islandState iSC) 1) vaultReopen
  | 10 => put (R.islandState iAO) 2
  | 11 => put (R.islandState iFP) 2
  | 3 => .seq (put (R.islandState iMT) 1) (put R.mtState 1)
  | _ => put (R.islandState i) 1

/-- STOCKTAKE_RUN_END (R378, R381, R392): the run of the island in test ends with a signature. -/
def execStocktakeRunEnd (i : Isl) (sig : Nat) (s : State) : Host.Outcome State Fault Refusal :=
  doesIf (fun s => s.o R.stocktakeState = 2 && s.island i = 4 && bit (s.o R.stMask) i)
    (.dyn fun s =>
      let pass := ((sig % 2 ^ 64 : Nat) : Int) = s.o (R.stSigExpect i)
      all [ put (R.stSig i) (sig % 2 ^ 64 : Nat), put (R.stRunUs i) (s.usSince (s.o R.stRunNs)), put (R.stFrame i) s.frame,
            stocktakeShown i pass, event R.stEventQueue 0xD0 i (if pass then 1 else 2),
            if pass then stPassed i
            else .seq (put (R.islandState i) 5)
              (if i.val = iSF then .seq (put R.sfState 3) refreshLatches
               else if i.val = iMT then put R.mtState 1 else .skip),
            .dyn fun s => put R.stMask (withBit (s.o R.stMask) i false), stNext ]) s

/-! ## The rotating partial run (R384–R386) -/

/-- Partitions of an island in the rotating run (R379). -/
def partitions : List Nat := [24, 24, 8, 0, 6, 6, 8, 8, 4, 6, 0, 0]

/-- The partition after one, and whether the rotation is complete. -/
def nextPartition (i p : Nat) : (Nat × Nat) × Bool :=
  if p + 1 < partitions.getD i 0 then ((i, p + 1), false)
  else match (upTo 12).find? fun j => decide (i < j) && decide (0 < partitions.getD j 0) with
    | some j => ((j, 0), false)
    | none => ((0, 0), true)

/-- SEGMENT_START (R385): at a PFB of a STANDBY unit, spaced from the segment before. -/
def execSegmentStart (s : State) : Host.Outcome State Fault Refusal :=
  doesIf (fun s => s.next.val = 0 && s.role = roleStandby && !s.stocktaking && !s.injecting
      && (s.o R.segEndFrame < 0 || decide (s.a R.segSpacingFrames ≤ ((s.frame : Int) - s.o R.segEndFrame) % 4294967296)))
    (.dyn fun s => all [ put R.stocktakeState 3, put R.segIsland (s.o R.segNextI), put R.segPartition (s.o R.segNextP) ]) s

/-- SEGMENT_END (R385): the segment passes or fails, and the rotation goes on. -/
def execSegmentEnd (pass : Bool) (s : State) : Host.Outcome State Fault Refusal :=
  doesIf (fun s => s.o R.stocktakeState = 3)
    (.dyn fun s =>
      let i := (s.o R.segIsland).toNat
      let p := (s.o R.segPartition).toNat
      let n := nextPartition i p
      all [ put R.stocktakeState 0, put R.segEndFrame s.frame, put R.segIsland 255, put R.segPartition 0,
            put R.segNextI n.1.1, put R.segNextP n.1.2,
            if pass then bump R.segmentsPassed
            else all [ health 5, bump R.segFails, put R.segLastFail (i * 256 + p : Nat), event R.stEventQueue 0xD1 i p ],
            if n.2 then .dyn fun s => .seq (bump R.rotations)
              (event R.stEventQueue 0xD2 255 ((s.o R.rotations + 1) % 65536).toNat)
            else .skip ]) s

/-- SEGMENT_ABANDON (R386): a takeover starts, or the role is no longer STANDBY. -/
def execSegmentAbandon (s : State) : Host.Outcome State Fault Refusal :=
  doesIf (fun s => s.o R.stocktakeState = 3 && (s.role != roleStandby || s.o R.claim = 1
      || (0 ≤ s.o R.pairSampleNs && decide (16000 ≤ s.now - s.o R.pairSampleNs)))) abandonSegment s

/-! ## Injection points (R387–R391) -/

/-- Whether a point acts on both units of a pair (R388). -/
def injBoth (d : Nat) : Bool :=
  d < 48 || (decide (96 ≤ d) && decide (d < 120)) || (decide (136 ≤ d) && decide (d < 140))
    || (decide (148 ≤ d) && decide (d < 162)) || decide (165 ≤ d)

/-- A mask of outputs. -/
def outsMask (l : List Nat) : Nat := orAll ((l.filter (· < 24)).map (2 ^ ·))

/-- The expander that point 136 + l names. -/
def State.injExp (s : State) (d : Nat) : Nat := 32 * (d - 136) + (s.o (R.injArg d)).toNat % 32

/-- The target outputs of point d (R388), as a mask. -/
def State.injTargets (s : State) (d : Nat) : Nat :=
  let arg := (s.o (R.injArg d)).toNat
  if d < 48 then outsMask [s.holds d]
  else if d < 72 then outsMask [d - 48]
  else if d < 96 then outsMask [d - 72]
  else if d < 120 then outsMask [d - 96]
  else if d < 136 then
    let g := s.siGov (d - 120)
    if s.a (R.siFunc g) = 1 then 0xFFFFFF else if s.a (R.siFunc g) = 2 then (s.a (R.siOutMask g)).toNat else 0
  else if d < 140 then
    let x := s.injExp d
    outsMask ((upTo 24).filter (fun k => outExp k = x) ++ ((upTo 48).filter fun m => selExp m = x).flatMap s.reach)
  else if d < 148 || d = 160 || d = 163 then 0xFFFFFF
  else if d < 160 then
    let e : Int := (d - 148 : Nat)
    outsMask ((upTo 24).filter (fun k => s.o (R.loopEngine k) % 16 = e || s.o (R.loopEngine k) / 16 = e)
      ++ ((upTo 192).filter fun n => s.o (R.chEngine n) = e).map fun n => s.holds (n / 4))
  else if d = 164 then outsMask ((upTo 24).filter fun k => vrefOf k = arg)
  else if 165 ≤ d && d < 173 then (s.a (R.loopOutputs (d - 165))).toNat
  else if d = 176 then outsMask (((upTo 48).filter fun m => s.a (R.hsSensor m) = (arg : Int)).map s.holds)
  else if d = 177 then outsMask [arg]
  else 0

/-- The entry that refuses the start of an injection (M6, M11, M15, M16, R389): its number, 0 none. -/
def State.injRefusal (s : State) (d : Nat) : Nat :=
  let t := s.injTargets d
  let field := s.lc = 2 || s.lc = 3
  let permit := 0 ≤ s.o R.permitEnd && decide (s.now < s.o R.permitEnd)
  let covered := permit && t &&& (s.o R.permitMask).toNat = t
  if s.role = roleSolo && field && !(covered && (upTo 24).all fun k => !t.testBit k || s.os k = osIdle || s.os k = osEnded)
  then 6
  else if d < 48 && s.o (R.injArg d) < 4 && s.cs (4 * d + (s.o (R.injArg d)).toNat) = csClosed && s.lc != 4 then 11
  else if s.lc = 0 || s.lc = 5 || (field && (!covered || (decide (140 ≤ d) && decide (d < 148)) || d = 163 || d = 164)) then 15
  else if s.stocktaking || s.injecting then 16
  else 0

/-- What R388 names as the reaction of point d, as a number that changes when it comes. -/
def State.injSignal (s : State) (d : Nat) : Int :=
  let arg := (s.o (R.injArg d)).toNat
  if d < 48 then
    if arg < 4 then
      let n := 4 * d + arg
      s.o (R.cbcCnt n) * 16 + s.o (R.ocPos n) * 8 + s.o (R.ocNeg n) * 4 + s.o (R.chForced n)
    else s.o (R.tripCauses d)
  else if d < 72 then s.o R.scoCut
  else if d < 96 then s.o (R.imdState (d - 72))
  else if d < 120 then s.o (R.hotReq (d - 96))
  else if d < 136 then s.o R.scoCut
  else if d < 140 then
    let x := s.injExp d
    (s.o (R.expFlags x) * 65536 + s.o (R.expStuck x)) * 65536 + s.o (R.expCmd x)
  else if d < 147 then s.o R.sfState
  else if d < 148 then s.o R.fullResetCount
  else if d < 160 then s.o R.engineFailMask
  else if d = 160 then s.o R.sfState
  else if d = 161 then s.o (R.qEccCorr (arg % 256)) * 4294967296 + s.o (R.qUncorrCount (arg % 256))
  else if d = 162 then s.o R.writeFails
  else if d = 163 then s.o R.laneErrA + s.o R.laneErrB + s.o R.takeovers + s.o R.mismatchEvents
  else if d = 164 then s.o R.vrefDrift
  else if d < 173 then s.o (R.loopFlags (d - 165))
  else if d = 173 then s.o (R.feState arg)
  else if d = 174 then s.o R.mplState
  else if d = 175 then s.o R.srcLost
  else if d = 176 then s.o (R.hkStatus arg)
  else if d = 177 then s.o (R.linkFault arg)
  else if d = 178 then s.o (R.bsState arg)
  else 0

/-- An injection starts at its stamp (R387): on the unit that drives, and on the other where the point acts on both. -/
def applyInjStart (d : Nat) : Script :=
  .dyn fun s =>
    onlyIf ((s.drives || injBoth d) && !s.injecting && decide (d < 179))
      (all [ put R.injRunning d, put (R.injState d) 1, put (R.injReaction d) 0, put (R.injResponseUs d) 0, bump (R.injCount d),
             put (R.injFrame d) s.frame, put R.injMask (s.injTargets d), put R.injNs s.now, put R.injBase (s.injSignal d),
             event R.stEventQueue 0xD3 d (s.o (R.injArg d)).toNat,
             if d = 177 then sense (.linkFault ⟨(s.o (R.injArg d)).toNat % 24, Nat.mod_lt _ (by decide)⟩ (s.o (R.injValue d)).toNat)
             else .skip ])

/-- The running injection ends (R387, R391): 2 done, 4 early. -/
def injEnds (st : Nat) : Script :=
  .dyn fun s =>
    let d := (s.o R.injRunning).toNat
    onlyIf s.injecting
      (all [ put (R.injState d) st, put R.injRunning 255, put R.injMask 0,
             if s.o (R.injReaction d) = 1 then .skip else put (R.injResponseUs d) 4294967295,
             event R.stEventQueue 0xD4 d (st * 256 + (s.o (R.injReaction d)).toNat) ])

/-- INJ_STOP takes effect. -/
def applyInjStop (d : Nat) : Script := .dyn fun s => onlyIf (s.o R.injRunning = (d : Int)) (injEnds 4)

/-- The reaction of the running injection has come (R391).
[DEDUCED, log 35] -/
def injTrack : Script :=
  .dyn fun s =>
    let d := (s.o R.injRunning).toNat
    onlyIf (s.injecting && s.o (R.injReaction d) = 0 && s.injSignal d != s.o R.injBase)
      (.seq (put (R.injReaction d) 1) (put (R.injResponseUs d) (s.usSince (s.o R.injNs))))

/-- INJECTION_HOLD_END (R387): INJ_HOLD_US has run. -/
def execInjectionHoldEnd (s : State) : Host.Outcome State Fault Refusal :=
  doesIf (fun s => s.injecting && decide (s.o (R.injHoldUs (s.o R.injRunning).toNat) ≤ s.usSince (s.o R.injNs))) (injEnds 2) s

/-! ## Permits (R390) -/

/-- INJ_PERMIT_STATE takes a value (R392).
[DEDUCED, log 35] -/
def permitIs (v : Nat) : Script := .seq (put R.injPermitState v) (event R.stEventQueue 0xD5 255 v)

/-- The permit ends; a running injection ends with it where it needs one. -/
def permitEnds (v : Nat) : Script :=
  .dyn fun s => all [ if 0 ≤ s.o R.permitEnd then injEnds 4 else .skip, put R.permitEnd (-1), put R.permitMask 0, permitIs v ]

/-- INJ_PERMIT_S takes effect: 0 ends the permit; another value asks for one, with a fresh nonce.
[DEDUCED, log 35] -/
def applyInjPermitS (v : Int) : Script :=
  .seq (put R.injPermitS v)
    (if v = 0 then .seq (put R.chalNs (-1)) (permitEnds 0)
     else draw 256 fun x => .dyn fun s => all [ put R.injChallenge x, put R.chalNs s.now, permitIs 1 ])

/-- Whether a token is the owner anchor's over what R390 names, within 60 s of an unused challenge. -/
def State.injTokenOk (s : State) (token : Int) : Bool :=
  let msg := ascii "ODXINJ" ++ leBytes 16 (s.o R.serial).toNat ++ leBytes 4 (s.o R.injPermitS).toNat
    ++ leBytes 4 (s.o R.injOutMask).toNat ++ leBytes 32 (s.o R.injChallenge).toNat
  0 ≤ s.o R.chalNs && decide (s.now - s.o R.chalNs ≤ 60000000000) && s.o (R.blobState 3) = 1
    && ecdsaVerify (leBytes 97 (s.o (R.blobPub 3)).toNat) (sha384 msg) (leBytes 96 token.toNat)

/-- INJ_TOKEN takes effect; the nonce is used up. -/
def applyInjToken (token : Int) : Script :=
  .dyn fun s =>
    .seq
      (if s.injTokenOk token then
         all [ put R.permitEnd (s.now + s.o R.injPermitS * 1000000000), put R.permitMask (s.o R.injOutMask), permitIs 2 ]
       else permitIs 4)
      (put R.chalNs (-1))

/-- PERMIT_EXPIRY (R390). -/
def execPermitExpiry (s : State) : Host.Outcome State Fault Refusal :=
  doesIf (fun s => 0 ≤ s.o R.permitEnd && decide (s.o R.permitEnd ≤ s.now)) (permitEnds 3) s

/-- A life-cycle transition at a PFB ends a permit (R390). -/
def lifeCyclePfb : Script :=
  .dyn fun s => .seq lcPfb
    (if s.o R.lcDue != 0 && s.o R.injPermitState != 0 then .seq (put R.chalNs (-1)) (permitEnds 0) else .skip)

end Sys2Proof.Machine
end

