-- ==== Sys2Proof/Machine/Access.lean ====
section
/-!
DEFINITION. Access to the catalogue (spec/02_object_catalogue.md R41–R62): what a write may do and why it is refused, the
Lomush Object Transfer on its three transports, the partition, the DW70 mirror; and the commands that are writes to one
object each.
-/

namespace Sys2Proof.Machine

/-! ## Refusals (R13, R38, R43, R49, R53, R55, R59, R70, R76, R140, R176, R228, R280, R281, R313, R314, R344) -/

/-- Why a request is refused: CODE and DETAIL of R49, and the entry of the mode matrix (0 none). -/
abbrev Why := Nat × Nat × Nat

/-- ACCESS_ERROR with a detail. -/
def accessError (d : Nat) : Option Why := some (0x20, d, 0)

/-- Objects of the metrology group that are legally relevant, "L:" in their tables (R176).
[DEDUCED, log 10] -/
def legal (k : Key) : Bool :=
  let ix := k / 256
  let sub := k % 256
  (0x3800 ≤ ix && ix < 0x3818 && 1 ≤ sub && sub ≤ 3) || (0x3840 ≤ ix && ix < 0x3842 && 1 ≤ sub && sub ≤ 5)
    || (0x3880 ≤ ix && ix < 0x3888 && 1 ≤ sub && sub ≤ 3)

/-- The domain whose island an index belongs to, where that domain can be switched off (R69, R70).
[DEDUCED, log 9] -/
def domainOf (ix : Nat) : Option Nat :=
  if 0x2800 ≤ ix && ix < 0x3000 then some 4
  else if 0x3000 ≤ ix && ix < 0x3700 then some 3
  else if 0x4000 ≤ ix && ix < 0x4400 then some 6
  else if 0x4400 ≤ ix && ix < 0x4600 then some 7
  else if 0x4600 ≤ ix && ix < 0x4800 then some 11
  else none

/-- Objects whose writes act only on the unit that receives them (R314). -/
def unitLocal (k : Key) : Bool :=
  [R.ledgerAck, R.ledgerRead, R.snapshotReq, R.driftClear, R.meas7Extend, R.resetReq, R.alarmClear, R.lcTarget,
   R.lcToken].contains k

/-- Whether a unit that does not drive takes a write all the same (R314). -/
def State.takesLocally (s : State) (src : Src) (k : Key) : Bool :=
  (unitLocal k && (k != R.meas7Extend || src = .partition)) || k = R.stReq
    || (k = R.swapReq && s.role = roleStandby) || (k = R.rejoin && s.role = roleSuspect)

/-- Whether a source may write an object at all (R53, R55, R59, R76, R281). -/
def State.mayWrite (s : State) (src : Src) (k : Key) : Bool :=
  let ix := k / 256
  let vault := 0x4A00 ≤ ix && ix < 0x4C00
  let fwBuf := [0, 1, 2].any fun p => s.canOwned p && ix = 0x4408 + txb p 0 && src != .firmware
  (match src with
    | .can _ => !(s.lc = 3 && s.o R.canLotWrite != 1) && !vault && k != R.canLotWrite && k != R.resetReq
    | .udp a => s.d.assocs.any fun x => x.num = a && x.canWrite
    | .partition => grpOf k != some gSafe && (!vault || k = R.meas7Extend)
    | _ => k != R.canLotWrite) && !fwBuf

/-- Whether a field switch's command belongs to a loop, or to the other channel of its pair (R218, R228, R230). -/
def State.fsClosedTo (s : State) (k : Key) : Bool :=
  match (upTo 32).find? fun j => k = R.fsCmd j with
  | some j => s.o (R.fsOwner j) != 255 || (s.fsPaired j && j % 2 = 1)
  | none => false

/-- Content of a transmit buffer that is queued (R280). -/
def State.txbHeld (s : State) (k : Key) : Bool :=
  [0, 1, 2].any fun p => [0, 1, 2].any fun b => k / 256 = 0x4408 + txb p b && 1 ≤ k % 256 && k % 256 ≤ 5 && s.txbBusy p b

/-- A coefficient of a loop that runs (R140). -/
def State.coefClosed (s : State) (k : Key) : Bool :=
  let ix := k / 256
  let sub := k % 256
  if 0x3200 ≤ ix && ix < 0x32C0 then !(s.cs (ix - 0x3200) = csDisabled || s.cs (ix - 0x3200) = csOpen)
  else if 0x3600 ≤ ix && ix < 0x3618 && 0x20 ≤ sub && sub ≤ 0x2F then
    !(s.os (ix - 0x3600) = osIdle || s.os (ix - 0x3600) = osEnded || s.os (ix - 0x3600) = osFault)
  else if 0x3480 ≤ ix && ix < 0x34B0 && sub = 5 then (legs (ix - 0x3480)).any fun n => s.cs n = csClosed
  else false

/-- Why an object cannot be reached: it does not exist, or its item is absent (R5, R41, R49). -/
def State.unreachable (s : State) (k : Key) : Option Why :=
  match highestSub (k / 256) with
  | none => some (0x10, 0, 0)
  | some n =>
    if k % 256 != 0 && (findRow k).isNone then some (0x11, n, 0)
    else if s.absent k then accessError 5 else none

/-- Why a source may not write an object, whatever the value.
[DEDUCED, log 9] -/
def State.keyRefusal (s : State) (src : Src) (k : Key) : Option Why :=
  match s.unreachable k with
  | some w => some w
  | none =>
    let ix := k / 256
    if !s.drives && !s.takesLocally src k then accessError 3
    else if !(match accOf k with | some .rw => true | some .rws => true | some .wo => true | some (.rwl _) => true | _ => false) then
      accessError (if 0x3800 ≤ ix && ix < 0x3C00 then 8 else 1)
    else if (domainOf ix).any (fun d => !bit (s.o R.domainState) d) || s.txbHeld k then accessError 1
    else if !s.mayWrite src k || s.fsClosedTo k then accessError 3
    else if (match accOf k with | some (.rwl m) => !m.testBit s.lc.toNat | _ => false) then accessError 4
    else if k = R.ownerAnchor && s.o (R.blobState 3) = 1 then accessError 4
    else if s.lc = 3 && legal k then accessError 8
    else if s.coefClosed k then accessError 6
    else none

/-- Values that an RW or WO object takes beside the range of its table.
[DEDUCED, log 10] -/
def State.valueTaken (s : State) (k : Key) (v : Int) : Bool :=
  let ix := k / 256
  let sub := k % 256
  if k = R.storeReq then v = 0x5354
  else if k = R.restoreDefaults then v = 0x4446
  else if k = R.resetReq then v = 0x4150 || v = 0x4341 || v = 0x504F
  else if k = R.driftClear then v = 0x4443
  else if 0x34C0 ≤ ix && ix < 0x34F0 && sub = 0x0D then v = 0x4643
  else if 0x4C40 ≤ ix && ix < 0x4C80 && sub = 7 then v = 0x5152
  else if 0x4C40 ≤ ix && ix < 0x4C80 && sub = 5 then v ≤ (s.queue (ix - 0x4C40)).words.length
  else if k = R.sdclkDiv then v = 40 || v = 50 || v = 80 || v = 100
  else if k = R.updOffset then v % 4096 = 0
  else if k = R.ledgerAck then s.o R.ledgerAck ≤ v && v ≤ s.o R.ledgerNewest
  else if k = R.snapshotReq then v ≤ 25
  else if k = R.lcTarget then v ≤ 5 || v = 0x80
  else if k = R.stReq then v < 4096
  else if 0x4408 ≤ ix && ix < 0x4411 && sub = 3 then
    v ≤ 8 || (bit (s.o (R.txbFlags (ix - 0x4408))) 1 &&
      (v = 12 || v = 16 || v = 20 || v = 24 || v = 32 || v = 48 || v = 64))
  else true

/-- Why a value is refused on arrival (R43, R57, R58, R354, R358, R382, R389).
[DEDUCED, log 9, DEDUCED, log 10] -/
def State.valueRefusal (s : State) (k : Key) (v : Int) : Option Why :=
  let ranged := match findRow k with
    | some (_, r) => shadowed k || (decide (r.lo ≤ v) && decide (v ≤ r.hi))
    | none => false
  let of := fun (w : Option (Nat × Nat)) => w.map fun (c, d) => (c, d, 0)
  if !ranged || !s.valueTaken k v then some (0x22, 0, 0)
  else if k = R.storeReq && (s.o R.storeReqd = 1 || s.o R.storeState = 1) then some (4, 1, 0)
  else if k = R.snapshotReq && decide (s.o R.outputsPresent ≤ v) && decide (v < 24) then accessError 5
  else if k = R.vaultCmd then of (s.vaultRefusal v.toNat)
  else if k = R.updCmd then of (s.updRefusal v.toNat)
  else if k = R.updData && s.o R.updState != 1 then some (5, 0, 0)
  else if k = R.stReq then (match s.stRefusal v.toNat with | 0 => none | e => some (0x20, 7, e))
  else if 0x4E40 ≤ k / 256 && k / 256 < 0x4EF3 && k % 256 = 4 then
    (match s.injRefusal (k / 256 - 0x4E40) with | 0 => none | e => some (0x20, 7, e))
  else none

/-- What a refusal leaves behind beside its answer.
[DEDUCED, log 9] -/
def recordRefusal (src : Src) (k : Key) (w : Why) : Script :=
  all [ if w.2.2 = 0 then .skip else refuse w.2.2 (k / 256) src,
        if k = R.vaultCmd && w.1 = 0x22 then put R.vaultResult 3 else .skip,
        if 0x4E40 ≤ k / 256 && k / 256 < 0x4EF3 && k % 256 = 4 then put (R.injState (k / 256 - 0x4E40)) 3 else .skip ]

/-- An accepted write is stamped; one of this unit alone is not mirrored, and SWAP_REQ on a STANDBY unit goes to the
owner (R314, R315). -/
def takeWrite (src : Src) (tag : Nat) (k : Key) (v : Int) : Script :=
  .dyn fun s =>
    if k = R.swapReq && s.role = roleStandby then send (.pair 10 [(k / 256 : Nat), (k % 256 : Nat), (srcCode src), v])
    else if unitLocal k then acceptLocal src tag (.write src k v)
    else accept src tag (.write src k v)

/-- A write of a value, and what follows where it is refused. -/
def tryWrite (src : Src) (tag : Nat) (k : Key) (v : Int) (refused : Why → Script) : Script :=
  .dyn fun s =>
    match (match s.keyRefusal src k with | some w => some w | none => s.valueRefusal k v) with
    | some w => .seq (recordRefusal src k w) (refused w)
    | none => takeWrite src tag k v

/-- Whether the resident firmware serves requests: CA has started and no AP reset is under way (R73, R77). -/
def State.serves (s : State) : Bool := decide (7 ≤ s.o R.startPhase) && s.o R.apDown != 1

/-- A command that is a write to one object. -/
def writeRow (src : Src) (k : Key) (v : Int) (s : State) : Host.Outcome State Fault Refusal :=
  doesIf State.serves (tryWrite src 0 k v fun w => send (.refusedWrite src w.1 w.2.1)) s

/-! ## The commands that are writes -/

/-- COMMIT (R26): any value requests an evaluation. -/
def execCommit (src : Src) (g : Grp) (s : State) : Host.Outcome State Fault Refusal := writeRow src (R.gCommit g) 1 s
/-- QUAR_CLEAR (R103). -/
def execQuarClear (src : Src) (m : Pm) (s : State) : Host.Outcome State Fault Refusal := writeRow src (R.quarClear m) 1 s
/-- STORE (R57). -/
def execStoreConfig (src : Src) (val : Nat) (s : State) : Host.Outcome State Fault Refusal := writeRow src R.storeReq val s
/-- RESTORE_DEFAULTS (R369). -/
def execRestoreDefaults (src : Src) (val : Nat) (s : State) : Host.Outcome State Fault Refusal :=
  writeRow src R.restoreDefaults val s
/-- DOMAIN_OFF (R69). -/
def execDomainOff (src : Src) (mask : Nat) (s : State) : Host.Outcome State Fault Refusal := writeRow src R.domainOff mask s
/-- DOMAIN_ON (R71). -/
def execDomainOn (src : Src) (mask : Nat) (s : State) : Host.Outcome State Fault Refusal := writeRow src R.domainOn mask s
/-- RESET_REQ 4150h (R76). -/
def execResetReqAp (src : Src) (s : State) : Host.Outcome State Fault Refusal := writeRow src R.resetReq 0x4150 s
/-- RESET_REQ 4341h (R76). -/
def execResetReqCa (src : Src) (s : State) : Host.Outcome State Fault Refusal := writeRow src R.resetReq 0x4341 s
/-- RESET_REQ 504Fh (R76). -/
def execResetReqFull (src : Src) (s : State) : Host.Outcome State Fault Refusal := writeRow src R.resetReq 0x504F s
/-- OUT_STOP (R106). -/
def execOutStop (src : Src) (k : Out) (s : State) : Host.Outcome State Fault Refusal := writeRow src (R.outStop k) 1 s
/-- FAULT_CLEAR (R114). -/
def execFaultClear (src : Src) (k : Out) (s : State) : Host.Outcome State Fault Refusal := writeRow src (R.faultClear k) 1 s
/-- LATCH_CLEAR (R170). -/
def execLatchClear (src : Src) (m : Pm) (s : State) : Host.Outcome State Fault Refusal := writeRow src (R.latchClear m) 1 s
/-- DRIFT_CLEAR (R182). -/
def execDriftClear (src : Src) (val : Nat) (s : State) : Host.Outcome State Fault Refusal := writeRow src R.driftClear val s
/-- SNAPSHOT_REQ (R203). -/
def execSnapshotReq (src : Src) (meter : Nat) (s : State) : Host.Outcome State Fault Refusal :=
  writeRow src R.snapshotReq meter s
/-- LEDGER_ACK (R207). -/
def execLedgerAck (src : Src) (seq : Nat) (s : State) : Host.Outcome State Fault Refusal := writeRow src R.ledgerAck seq s
/-- LEDGER_READ (R206). -/
def execLedgerRead (src : Src) (seq : Nat) (s : State) : Host.Outcome State Fault Refusal := writeRow src R.ledgerRead seq s
/-- FS_CMD (R228). -/
def execFsCmd (src : Src) (j : Fs) (on : Bool) (s : State) : Host.Outcome State Fault Refusal :=
  writeRow src (R.fsCmd j) (ofBool on) s
/-- FS_CLEAR (R236). -/
def execFsClear (src : Src) (j : Fs) (s : State) : Host.Outcome State Fault Refusal := writeRow src (R.fsClear j) 1 s
/-- TXB_REQUEST (R280). -/
def execTxbRequest (src : Src) (p : Port) (b : Buf) (s : State) : Host.Outcome State Fault Refusal :=
  writeRow src (R.txbRequest (txb p b)) 1 s
/-- TXB_ABORT (R283). -/
def execTxbAbort (src : Src) (p : Port) (b : Buf) (s : State) : Host.Outcome State Fault Refusal :=
  writeRow src (R.txbAbort (txb p b)) 1 s
/-- BUSOFF_RECOVER (R283). -/
def execBusoffRecover (src : Src) (p : Port) (s : State) : Host.Outcome State Fault Refusal :=
  writeRow src (R.busoffRecover p) 1 s
/-- SLEEP_REQ (R287). -/
def execSleepReq (src : Src) (p : Port) (s : State) : Host.Outcome State Fault Refusal := writeRow src (R.sleepReq p) 1 s
/-- WAKE_REQ (R287). -/
def execWakeReq (src : Src) (p : Port) (s : State) : Host.Outcome State Fault Refusal := writeRow src (R.wakeReq p) 1 s
/-- FE_WRITE_RESET (R289). -/
def execFeWriteReset (src : Src) (r : Fe) (s : State) : Host.Outcome State Fault Refusal := writeRow src (R.feWriteReset r) 1 s
/-- BCAST_REQ (R300). -/
def execBcastReq (src : Src) (s : State) : Host.Outcome State Fault Refusal := writeRow src R.bcastReq 1 s
/-- SWAP_REQ (R314, R326). -/
def execSwapReq (src : Src) (s : State) : Host.Outcome State Fault Refusal := writeRow src R.swapReq 1 s
/-- REJOIN (R312). -/
def execRejoin (src : Src) (s : State) : Host.Outcome State Fault Refusal := writeRow src R.rejoin 1 s
/-- ALARM_CLEAR (R314). -/
def execAlarmClear (src : Src) (s : State) : Host.Outcome State Fault Refusal := writeRow src R.alarmClear 1 s
/-- VAULT_CMD 1 (R354). -/
def execGenerate (src : Src) (s : State) : Host.Outcome State Fault Refusal := writeRow src R.vaultCmd 1 s
/-- VAULT_CMD 2 (R355). -/
def execImportKey (src : Src) (s : State) : Host.Outcome State Fault Refusal := writeRow src R.vaultCmd 2 s
/-- VAULT_CMD 3 (R354). -/
def execVerifyStage (src : Src) (s : State) : Host.Outcome State Fault Refusal := writeRow src R.vaultCmd 3 s
/-- VAULT_CMD 4 (R354). -/
def execStageCert (src : Src) (s : State) : Host.Outcome State Fault Refusal := writeRow src R.vaultCmd 4 s
/-- VAULT_CMD 5 (R356). -/
def execSwapKey (src : Src) (s : State) : Host.Outcome State Fault Refusal := writeRow src R.vaultCmd 5 s
/-- VAULT_CMD 6 (R354). -/
def execDiscardStage (src : Src) (s : State) : Host.Outcome State Fault Refusal := writeRow src R.vaultCmd 6 s
/-- VAULT_CMD 7 (R354). -/
def execDeleteSlot (src : Src) (s : State) : Host.Outcome State Fault Refusal := writeRow src R.vaultCmd 7 s
/-- VAULT_CMD 8 (R348). -/
def execExtendMeas7 (src : Src) (s : State) : Host.Outcome State Fault Refusal := writeRow src R.vaultCmd 8 s
/-- VAULT_CMD 9 (R357). -/
def execGenerateBlob (src : Src) (s : State) : Host.Outcome State Fault Refusal := writeRow src R.vaultCmd 9 s
/-- VAULT_CMD 10 (R357). -/
def execImportBlob (src : Src) (s : State) : Host.Outcome State Fault Refusal := writeRow src R.vaultCmd 10 s
/-- UPD_CMD 1 (R358). -/
def execBeginUpd (src : Src) (s : State) : Host.Outcome State Fault Refusal := writeRow src R.updCmd 1 s
/-- UPD_CMD 2 (R358). -/
def execVerifyUpd (src : Src) (s : State) : Host.Outcome State Fault Refusal := writeRow src R.updCmd 2 s
/-- UPD_CMD 3 (R358). -/
def execForwardWrap (src : Src) (s : State) : Host.Outcome State Fault Refusal := writeRow src R.updCmd 3 s
/-- UPD_CMD 4 (R358). -/
def execActivate (src : Src) (s : State) : Host.Outcome State Fault Refusal := writeRow src R.updCmd 4 s
/-- UPD_CMD 5 (R358). -/
def execConfirm (src : Src) (s : State) : Host.Outcome State Fault Refusal := writeRow src R.updCmd 5 s
/-- UPD_CMD 6 (R358). -/
def execCancel (src : Src) (s : State) : Host.Outcome State Fault Refusal := writeRow src R.updCmd 6 s
/-- LC_TARGET (R359). -/
def execLcTarget (src : Src) (val : Nat) (s : State) : Host.Outcome State Fault Refusal := writeRow src R.lcTarget val s
/-- Q_CONSUME (R375). -/
def execQConsume (src : Src) (q : Fin 64) (n : Nat) (s : State) : Host.Outcome State Fault Refusal :=
  writeRow src (R.qConsume q) n s
/-- Q_RESET (R375). -/
def execQReset (src : Src) (q : Fin 64) (val : Nat) (s : State) : Host.Outcome State Fault Refusal :=
  writeRow src (R.qReset q) val s
/-- Q_FLAG_CLEAR (R373). -/
def execQFlagClear (src : Src) (q : Fin 64) (s : State) : Host.Outcome State Fault Refusal := writeRow src (R.qFlagClear q) 1 s
/-- ST_REQ (R382). -/
def execStReq (src : Src) (mask : Nat) (s : State) : Host.Outcome State Fault Refusal := writeRow src R.stReq mask s
/-- INJ_START (R387, R389). -/
def execInjStart (src : Src) (d : Fin 179) (s : State) : Host.Outcome State Fault Refusal := writeRow src (R.injStart d) 1 s
/-- INJ_STOP (R387). -/
def execInjStop (src : Src) (d : Fin 179) (s : State) : Host.Outcome State Fault Refusal := writeRow src (R.injStop d) 1 s
/-- INJ_PERMIT_S (R390). -/
def execInjPermitS (src : Src) (val : Nat) (s : State) : Host.Outcome State Fault Refusal := writeRow src R.injPermitS val s

/-- A write of bytes: the key's checks, then its length (R42), then its value. -/
def tryBytes (src : Src) (tag : Nat) (k : Key) (data : List Byte) (refused : Why → Script) : Script :=
  .dyn fun s =>
    match s.keyRefusal src k with
    | some w => .seq (recordRefusal src k w) (refused w)
    | none => if data.length = (tyOf k).bytes then tryWrite src tag k (ofBytes (tyOf k) data) refused
              else refused (0x21, (tyOf k).bytes, 0)

/-- A command that is a write of bytes. -/
def writeBytes (src : Src) (k : Key) (data : List Byte) (s : State) : Host.Outcome State Fault Refusal :=
  doesIf State.serves (tryBytes src 0 k data fun w => send (.refusedWrite src w.1 w.2.1)) s

/-- MEAS7_EXTEND (R348). -/
def execMeas7Extend (src : Src) (val : List Byte) (s : State) : Host.Outcome State Fault Refusal :=
  writeBytes src R.meas7Extend val s
/-- OWNER_ANCHOR (R357). -/
def execOwnerAnchor (src : Src) (val : List Byte) (s : State) : Host.Outcome State Fault Refusal :=
  writeBytes src R.ownerAnchor val s
/-- UPD_DATA (R358). -/
def execUpdData (src : Src) (data : List Byte) (s : State) : Host.Outcome State Fault Refusal := writeBytes src R.updData data s
/-- LC_TOKEN (R359). -/
def execLcToken (src : Src) (val : List Byte) (s : State) : Host.Outcome State Fault Refusal := writeBytes src R.lcToken val s
/-- INJ_TOKEN (R390). -/
def execInjToken (src : Src) (val : List Byte) (s : State) : Host.Outcome State Fault Refusal := writeBytes src R.injToken val s

/-! ## The DW70 mirror (R61, R62) -/

/-- The native index that a mirror index stands for. -/
def nativeIndex (ix : Nat) : Option Nat :=
  if 0x5100 ≤ ix && ix < 0x51C0 then some (0x3100 + (ix - 0x5100))
  else if 0x5200 ≤ ix && ix < 0x52C0 then some (0x3000 + (ix - 0x5200))
  else if 0x5300 ≤ ix && ix < 0x5318 then some (0x3600 + (ix - 0x5300))
  else if 0x5400 ≤ ix && ix < 0x5418 then some (0x3800 + (ix - 0x5400))
  else if 0x5500 ≤ ix && ix < 0x5530 then some (0x3400 + (ix - 0x5500))
  else none

/-- Quantities that R62 converts. -/
inductive Quantity where
  | mA | mV | w | mWh | centi | us | plain
deriving DecidableEq, Repr

/-- The quantity of a native object that the mirror serves, from the type and unit of its table. -/
def quantityOf (k : Key) : Quantity :=
  let ix := k / 256
  let sub := k % 256
  if 0x3000 ≤ ix && ix < 0x30C0 then (if sub = 7 || sub = 0x0B then .mA else .plain)
  else if 0x3100 ≤ ix && ix < 0x31C0 then (if sub = 2 || sub = 3 then .mA else if sub = 0x12 then .us else .plain)
  else if 0x3400 ≤ ix && ix < 0x3430 then
    (if [5, 7, 0x0B].contains sub then .us else if [9, 0x0A, 0x14].contains sub then .centi
     else if sub = 0x0C then .mV else .plain)
  else if 0x3600 ≤ ix && ix < 0x3618 then
    (if [1, 3, 4, 5, 6, 0x17, 0x22, 0x3A, 0x3B, 0x3D].contains sub then .mA
     else if [2, 0x10, 0x16, 0x19, 0x21, 0x39, 0x3C].contains sub then .mV
     else if sub = 9 then .w
     else if [8, 0x13, 0x1A, 0x43, 0x44].contains sub then .us else .plain)
  else if 0x3800 ≤ ix && ix < 0x3818 then
    (if sub = 3 || sub = 0x12 then .mA else if sub = 0x11 then .mV else if sub = 0x13 || sub = 0x1A then .w
     else if [0x14, 0x15, 0x16, 0x17].contains sub then .mWh else .plain)
  else .plain

/-- The mirror's type of a quantity. -/
def Quantity.ty (q : Quantity) (native : Ty) : Ty :=
  match q with
  | .mA => .i16 | .mV => .u16 | .w => .i16 | .mWh => .u32 | .centi => .i16 | .us => .u16 | .plain => native

/-- A native value as the mirror reads it, and whether it saturated. -/
def Quantity.toMirror (q : Quantity) (x : Int) : Int × Bool :=
  let sat := fun (lo hi v : Int) => (clamp lo hi v, decide (v < lo) || decide (hi < v))
  match q with
  | .mA => sat (-32767) 32767 (rne x 100)
  | .mV => sat 0 65535 (rne x 100)
  | .w => sat (-32767) 32767 (rne x 1000)
  | .mWh => sat 0 4294967295 (x / 1000)
  | .centi => (rne x 10, false)
  | .us => sat 0 65535 (rne x 1000)
  | .plain => (x, false)

/-- A mirror value as it is written to the native object. -/
def Quantity.toNative (q : Quantity) (x : Int) : Int :=
  match q with
  | .mA => x * 100 | .mV => x * 100 | .w => x * 1000 | .mWh => x * 1000 | .centi => x * 10 | .us => x * 1000 | .plain => x

/-! ## Requests -/

/-- What an index and a subindex name: a native object, a mirror object with its native one, the mirror's own object, an
object of the partition, or nothing that a request may reach. -/
inductive Target where
  | native (k : Key)
  | mirror (k : Key)
  | device (sub : Nat)
  | part (o : PartObj)
  | none (w : Why)
deriving DecidableEq, Repr

/-- The target of a request (R46, R60, R61). -/
def State.target (s : State) (ix sub : Nat) : Target :=
  if 0x5000 ≤ ix && ix < 0x6000 then
    if s.a R.profile != 1 then .none (0x20, 9, 0)
    else if ix = 0x5000 then (if sub ≤ 1 then .device sub else .none (0x11, 1, 0))
    else match nativeIndex ix with
      | some n => .mirror (n * 256 + sub)
      | none => .none (0x10, 0, 0)
  else if 0x6000 ≤ ix && ix < 0xA000 then
    match s.d.partObjs.find? fun o => o.index = ix && o.sub = sub with
    | some o => .part o
    | none =>
      match s.d.partObjs.filter fun o => o.index = ix with
      | [] => .none (0x10, 0, 0)
      | l => .none (0x11, l.foldl (fun m o => max m o.sub) 0, 0)
  else if 0x10000 ≤ ix then .none (0x10, 0, 0)
  else .native (ix * 256 + sub)

/-- Why a read of an object is refused. -/
def State.readRefusal (s : State) (k : Key) : Option Why :=
  match s.unreachable k with
  | some w => some w
  | none => if accOf k = some .wo then accessError 2 else none

/-- The bytes of a readable object (R42, R44), and whether a mirror read saturated. -/
def State.readBytes (s : State) (k : Key) (shadow : Bool) (mirror : Bool) : List Byte × Bool :=
  let t := if k % 256 = 0 then .u8 else tyOf k
  let v := s.read k shadow
  if mirror && k % 256 != 0 then
    let q := quantityOf k
    let (x, sat) := q.toMirror v
    (valueBytes (q.ty t) x, sat)
  else (valueBytes t v, false)

/-! ## The Lomush Object Transfer (R47–R51) -/

/-- The header's eight bytes. -/
def hdrBytes (h : LotHdr) : List Byte :=
  [h.service % 16 * 16 + (if h.last then 8 else 0) + (if h.segmented then 4 else 0) + (if h.shadow then 2 else 0),
   h.tag, h.index % 256, h.index / 256, h.sub, h.seg, h.length % 256, h.length / 256].map (BitVec.ofNat 8)

/-- The header that eight bytes spell. -/
def hdrOf (l : List Byte) : LotHdr :=
  let b := fun i => (l.getD i 0).toNat
  ⟨b 0 / 16, (b 0).testBit 3, (b 0).testBit 2, (b 0).testBit 1, b 1, b 2 + 256 * b 3, b 4, b 5, b 6 + 256 * b 7⟩

/-- Data bytes that one message carries. -/
def lotCap : Inst → Nat
  | .can _ => 56
  | _ => 1024

/-- The source of what an instance writes. -/
def srcOfInst : Inst → Src
  | .can p => .can p
  | .udp a => .udp a
  | .mailbox => .partition

/-- Answer on an instance; over CAN FD the frame goes through the firmware's buffer (R52, R281).
[DESIGN CHOICE, log 14] -/
def lotSend (t : Inst) (h : LotHdr) (data : List Byte) : Script :=
  .seq (send (.lot t h data))
    (match t with
     | .can p => .dyn fun s =>
        let l := hdrBytes h ++ data
        fwQueue ⟨p.val, none, (s.a R.reqIdBase + 0x20 + s.a R.nodeId).toNat,
          l ++ List.replicate (dlcLen l.length - l.length) 0⟩
     | _ => .skip)

/-- ABORT: the header's fields, LENGTH 4, CODE and DETAIL (R49). -/
def lotAbortTo (t : Inst) (h : LotHdr) (code detail : Nat) : Script :=
  lotSend t { h with service := 7, last := false, segmented := false, shadow := false, length := 4 }
    ([code % 256, code / 256, detail % 256, detail / 256].map (BitVec.ofNat 8))

/-- The header of a transaction. -/
def Txn.hdr (x : Txn) (service seg length : Nat) (last : Bool) : LotHdr :=
  ⟨service, last, false, false, x.tag, x.index, x.sub, seg, length⟩

/-- The open transaction with a tag on an instance. -/
def State.txn (s : State) (t : Inst) (tag : Nat) : Option Txn := s.d.txns.find? fun x => x.inst = t && x.tag = tag

/-- A transaction ends, or is kept in its new form. -/
def dropTxn (t : Inst) (tag : Nat) : Script :=
  upd fun d => { d with txns := d.txns.filter fun x => !(x.inst = t && x.tag = tag) }
def keepTxn (x : Txn) : Script := upd fun d => { d with txns := upsert (fun y => y.inst = x.inst && y.tag = x.tag) x d.txns }

/-- The controller ends a transaction with an ABORT. -/
def abortTxn (x : Txn) (code detail : Nat) : Script :=
  .seq (dropTxn x.inst x.tag) (lotAbortTo x.inst (x.hdr 7 ((x.seg + 255) % 256) 4 false) code detail)

/-- The final WRITE_ACK, which ends the transaction (R48). -/
def finalAck (x : Txn) : Script :=
  .seq (dropTxn x.inst x.tag) (lotSend x.inst (x.hdr 4 ((x.seg + 255) % 256) x.data.length true) [])

/-- Whether an instance carries LOT: the port that CAN_LOT_PORT names, an open association, the partition's mailbox. -/
def State.carries (s : State) (t : Inst) : Bool :=
  s.serves && match t with
    | .can p => s.a R.canLotPort = (p.val : Int) + 1 && s.canRuns p && s.onBus
    | .udp a => (s.island iNW = 2 || s.island iNW = 3) && s.d.assocs.any fun x => x.num = a
    | .mailbox => true

/-- Whether a request may open a transaction: its tag is free, and the instance holds fewer than four (R50). -/
def opening (t : Inst) (h : LotHdr) (go : Script) : Script :=
  .dyn fun s =>
    if (s.txn t h.tag).isSome then lotAbortTo t h 3 h.tag
    else if 4 ≤ (s.d.txns.filter fun x => x.inst = t).length then lotAbortTo t h 4 0
    else go

/-- A value read is sent: at once where it fits, else segment by segment (R48). -/
def sendValue (t : Inst) (h : LotHdr) (data : List Byte) : Script :=
  .dyn fun s =>
    let cap := lotCap t
    let fits := data.length ≤ cap
    .seq (lotSend t ⟨2, fits, !fits, false, h.tag, h.index, h.sub, 0, data.length⟩ (data.take cap))
      (if fits then .skip
       else keepTxn ⟨t, h.tag, false, h.index, h.sub, data, 0, cap, 0, s.now, s.now, .segment⟩)

/-- LOT_READ_REQ (R43, R44, R48). -/
def lotRead (t : Inst) (h : LotHdr) : Script :=
  opening t h <| .dyn fun s =>
    let serve := fun (k : Key) (mir : Bool) =>
      match s.readRefusal k with
      | some w => lotAbortTo t h w.1 w.2.1
      | none =>
        let (data, sat) := s.readBytes k h.shadow mir
        .seq (if sat then .seq (bump R.mirrorSatCount) (put R.mirrorLastSat h.index) else .skip) (sendValue t h data)
    match s.target h.index h.sub with
    | .none w => lotAbortTo t h w.1 w.2.1
    | .device sub => sendValue t h (if sub = 0 then valueBytes .u8 1 else valueBytes .u16 0x0D70)
    | .part o =>
      if o.readable then
        .seq (keepTxn ⟨t, h.tag, false, h.index, h.sub, [], 0, 0, 0, s.now, s.now, .verdict⟩)
          (send (.toPartition h.index h.sub false []))
      else lotAbortTo t h 0x20 2
    | .native k => serve k false
    | .mirror k => serve k true

/-- Why a write cannot go on to a target, and the length its value has (R42, R60, R61). -/
def State.writeLen (s : State) (src : Src) (g : Target) : Why ⊕ Nat :=
  match g with
  | .none w => .inl w
  | .device _ => .inl (0x20, 1, 0)
  | .part o =>
    if !s.drives then .inl (0x20, 3, 0)
    else if !o.writable then .inl (0x20, 1, 0)
    else if !s.mayWrite src (o.index * 256 + o.sub) then .inl (0x20, 3, 0)
    else .inr o.len
  | .native k =>
    match s.keyRefusal src k with
    | some w => .inl w
    | none => .inr (tyOf k).bytes
  | .mirror k =>
    match s.keyRefusal src k with
    | some w => .inl w
    | none =>
      if 0x3800 ≤ k / 256 && k / 256 < 0x3818 || quantityOf k = .mWh then .inl (0x20, 1, 0)
      else .inr ((quantityOf k).ty (tyOf k)).bytes

/-- A whole value goes to its target; a mirror write of a shadowed object also asks for a commit (R62).
[DESIGN CHOICE, log 14] -/
def deliverValue (src : Src) (tag ix sub : Nat) (data : List Byte) (refused : Why → Script) : Script :=
  .dyn fun s =>
    match s.target ix sub with
    | .native k => tryWrite src tag k (ofBytes (tyOf k) data) refused
    | .mirror k =>
      let q := quantityOf k
      let v := q.toNative (ofBytes (q.ty (tyOf k)) data)
      match s.valueRefusal k v with
      | some w => .seq (recordRefusal src k w) (refused w)
      | none => .seq (takeWrite src tag k v)
          (match (if shadowed k then grpOf k else none) with
           | some g => takeWrite src tag (R.gCommit g) 1
           | none => .skip)
    | .part _ => send (.toPartition ix sub true data)
    | _ => .skip

/-- A write whose last segment has come: the transaction waits for the stamp, or for the partition. -/
def writeWhole (x : Txn) : Script :=
  .dyn fun s =>
    let wait : TxnWait := match s.target x.index x.sub with | .part _ => .verdict | _ => .stamp
    .seq (keepTxn { x with wait := wait, touched := s.now })
      (deliverValue (srcOfInst x.inst) x.tag x.index x.sub x.data fun w => abortTxn x w.1 w.2.1)

/-- LOT_WRITE_REQ (R48). -/
def lotWrite (t : Inst) (h : LotHdr) (data : List Byte) : Script :=
  opening t h <| .dyn fun s =>
    let cap := lotCap t
    let g := s.target h.index h.sub
    match s.writeLen (srcOfInst t) g with
    | .inl w => .seq (match g with | .native k => recordRefusal (srcOfInst t) k w | _ => .skip) (lotAbortTo t h w.1 w.2.1)
    | .inr n =>
      let one := min n cap
      if h.length != n || data.length < one || (decide (cap < n) && !h.segmented) then lotAbortTo t h 0x21 n
      else
        let x : Txn := ⟨t, h.tag, true, h.index, h.sub, data.take one, n, 0, 1, s.now, s.now, .segment⟩
        if n ≤ cap then writeWhole x
        else .seq (keepTxn x) (lotSend t (x.hdr 4 0 one false) [])

/-- LOT_SEG_DATA (R48, R49). -/
def lotSegDataMsg (t : Inst) (h : LotHdr) (data : List Byte) : Script :=
  .dyn fun s =>
    match s.txn t h.tag with
    | none => lotAbortTo t h 5 0xFFFF
    | some x =>
      if !x.isWrite || x.wait != .segment || h.seg != x.seg then abortTxn x 5 x.seg
      else
        let n := min (lotCap t) (x.want - x.data.length)
        if h.length != n || data.length < n then abortTxn x 0x21 x.want
        else
          let y := { x with data := x.data ++ data.take n, seg := (x.seg + 1) % 256, touched := s.now }
          if y.data.length < y.want then .seq (keepTxn y) (lotSend t (y.hdr 4 h.seg y.data.length false) [])
          else writeWhole y

/-- LOT_SEG_ACK (R48, R49): the next segment of a read. -/
def lotSegAckMsg (t : Inst) (h : LotHdr) : Script :=
  .dyn fun s =>
    match s.txn t h.tag with
    | none => lotAbortTo t h 5 0xFFFF
    | some x =>
      if x.isWrite || x.wait != .segment || h.seg != x.seg then abortTxn x 5 x.seg
      else
        let part := (x.data.drop x.done).take (lotCap t)
        let last := x.data.length ≤ x.done + part.length
        let seg := (x.seg + 1) % 256
        .seq (lotSend t (x.hdr 5 seg part.length last) part)
          (if last then dropTxn t h.tag
           else keepTxn { x with done := x.done + part.length, seg := seg, touched := s.now })

/-- LOT_ABORT (R49): the transaction ends without an answer; a write that has not landed never does. -/
def lotAbortMsg (t : Inst) (h : LotHdr) : Script :=
  .dyn fun s =>
    match s.txn t h.tag with
    | none => .skip
    | some x =>
      .seq (dropTxn t h.tag)
        (if x.isWrite && x.wait = .stamp then
          upd fun d => { d with stamps := d.stamps.filter fun y =>
            !(y.src = srcOfInst t && y.tag = h.tag && (match y.inp with | .write _ _ _ => true | _ => false)) }
         else .skip)

/-- A message of a requester, by its service.
[DESIGN CHOICE, log 14] -/
def lotMessage (t : Inst) (h : LotHdr) (data : List Byte) : Script :=
  match h.service with
  | 1 => lotRead t h
  | 3 => lotWrite t h data
  | 5 => lotSegDataMsg t h data
  | 6 => lotSegAckMsg t h
  | 7 => lotAbortMsg t h
  | n => lotAbortTo t h 2 n

/-- LOT_READ_REQ. -/
def execLotReadReq (t : Inst) (h : LotHdr) (s : State) : Host.Outcome State Fault Refusal :=
  doesIf (fun s => s.carries t && h.service = 1) (lotRead t h) s

/-- LOT_WRITE_REQ. -/
def execLotWriteReq (t : Inst) (h : LotHdr) (data : List Byte) (s : State) : Host.Outcome State Fault Refusal :=
  doesIf (fun s => s.carries t && h.service = 3) (lotWrite t h data) s

/-- LOT_SEG_DATA. -/
def execLotSegData (t : Inst) (h : LotHdr) (data : List Byte) (s : State) : Host.Outcome State Fault Refusal :=
  doesIf (fun s => s.carries t && h.service = 5) (lotSegDataMsg t h data) s

/-- LOT_SEG_ACK. -/
def execLotSegAck (t : Inst) (h : LotHdr) (s : State) : Host.Outcome State Fault Refusal :=
  doesIf (fun s => s.carries t && h.service = 6) (lotSegAckMsg t h) s

/-- LOT_ABORT. -/
def execLotAbort (t : Inst) (h : LotHdr) (s : State) : Host.Outcome State Fault Refusal :=
  doesIf (fun s => s.carries t && h.service = 7) (lotAbortMsg t h) s

/-- LOT_UNKNOWN_SERVICE (R47, R49). -/
def execLotUnknownService (t : Inst) (h : LotHdr) (s : State) : Host.Outcome State Fault Refusal :=
  doesIf (fun s => s.carries t && !([1, 3, 5, 6, 7].contains h.service)) (lotAbortTo t h 2 h.service) s

/-- LOT_SEGMENT_TIMEOUT (R51): 100 ms without the next segment or SEG_ACK. -/
def execLotSegmentTimeout (t : Inst) (tag : Nat) (s : State) : Host.Outcome State Fault Refusal :=
  doesIf (fun s => s.serves && match s.txn t tag with
      | some x => x.wait = .segment && decide (100000 ≤ s.usSince x.touched) | none => false)
    (.dyn fun s => match s.txn t tag with | some x => abortTxn x 1 0 | none => .skip) s

/-- LOT_LIFETIME_TIMEOUT (R51): 5 s. -/
def execLotLifetimeTimeout (t : Inst) (tag : Nat) (s : State) : Host.Outcome State Fault Refusal :=
  doesIf (fun s => s.serves && match s.txn t tag with
      | some x => decide (5000000 ≤ s.usSince x.opened) | none => false)
    (.dyn fun s => match s.txn t tag with | some x => abortTxn x 1 2 | none => .skip) s

/-! ## The partition (R59, R60) -/

/-- PARTITION_VERDICT (R60). -/
def execPartitionVerdict (t : Inst) (tag : Nat) (v : Verdict) (s : State) : Host.Outcome State Fault Refusal :=
  doesIf (fun s => s.serves && match s.txn t tag with | some x => x.wait = .verdict | none => false)
    (.dyn fun s =>
      match s.txn t tag with
      | none => .skip
      | some x =>
        match v with
        | .writeOk => if x.isWrite then finalAck x else .skip
        | .readOk data =>
          if x.isWrite then .skip
          else .seq (dropTxn t tag) (sendValue t (x.hdr 1 0 0 false) data)
        | .abort code detail => abortTxn x code detail) s

/-- PARTITION_TIMEOUT (R60): 100 ms without a verdict. -/
def execPartitionTimeout (t : Inst) (tag : Nat) (s : State) : Host.Outcome State Fault Refusal :=
  doesIf (fun s => s.serves && match s.txn t tag with
      | some x => x.wait = .verdict && decide (100000 ≤ s.usSince x.touched) | none => false)
    (.dyn fun s => match s.txn t tag with | some x => abortTxn x 1 1 | none => .skip) s

/-- OBJECT_WRITE (R43): a write to any object, whatever its route. -/
def execObjectWrite (src : Src) (index sub : Nat) (data : List Byte) (s : State) : Host.Outcome State Fault Refusal :=
  doesIf State.serves
    (.dyn fun s =>
      let no := fun (w : Why) => send (.refusedWrite src w.1 w.2.1)
      let g := s.target index sub
      match s.writeLen src g with
      | .inl w => .seq (match g with | .native k => recordRefusal src k w | _ => .skip) (no w)
      | .inr n => if data.length = n then deliverValue src 0 index sub data no else no (0x21, n, 0)) s

/-- What becomes of the transaction whose write has landed at its stamp: the final WRITE_ACK, or, for a mirror write of a
shadowed object, the wait for the evaluation of its group (R48, R62). -/
def lotLanded (src : Src) (tag : Nat) (k : Key) : Script :=
  .dyn fun s =>
    match s.d.txns.find? fun x => srcOfInst x.inst = src && x.tag = tag && x.isWrite && x.wait = .stamp
        && (match s.target x.index x.sub with | .native y => y = k | .mirror y => y = k | _ => false) with
    | none => .skip
    | some x =>
      match s.target x.index x.sub, (if shadowed k then grpOf k else none) with
      | .mirror _, some g => keepTxn { x with wait := .landed g }
      | _, _ => finalAck x

/-- At the commit cut-off, mirror writes that have landed belong to the coming evaluation (R26, R62). -/
def lotCutoff : Script :=
  upd fun d => { d with txns := d.txns.map fun x =>
    match x.wait with | .landed g => if g = gMet then x else { x with wait := .due g } | _ => x }

/-- Mirror writes whose group has been evaluated: `rule` 0 is accepted (R62). -/
def lotEvaluated (g rule : Nat) : Script :=
  .dyn fun s =>
    each (s.d.txns.filter fun x => x.wait = .due g) fun x => if rule = 0 then finalAck x else abortTxn x 0x25 rule

/-! ## DTLS (R54, R55) -/

/-- Whether vault slot t holds a trust anchor that the TLS record engine may verify with (R353). -/
def State.anchorIn (s : State) (t : Int) : Bool :=
  s.o (R.slotState t.toNat) = 1 && bit (s.o (R.slotAttr t.toNat)) 19 && bit (s.o (R.slotAttr t.toNat)) 1

/-- DTLS_HANDSHAKE (R54, R55): the lowest free association opens, with the rights that the certificate's anchor gives.
[DESIGN CHOICE, log 14] -/
def execDtlsHandshake (o : DtlsOffer) (s : State) : Host.Outcome State Fault Refusal :=
  doesIf (fun s => s.serves && (s.island iNW = 2 || s.island iNW = 3) && s.a R.udpEthMask != 0)
    (.dyn fun s =>
      let free := (List.finRange 4).find? fun n => !(s.d.assocs.any fun x => x.num = n)
      let reads := o.chainsRead && s.anchorIn (s.a R.readAnchorSlot)
      let writes := o.chainsWrite && s.anchorIn (s.a R.writeAnchorSlot)
      match free with
      | none => send (.alert 4 40)
      | some n =>
        if !(o.dtls13 && o.suiteOk && o.groupOk && o.certEcdsa) then send (.alert n.val 40)
        else if reads || writes then upd fun d => { d with assocs := d.assocs ++ [⟨n, writes⟩] }
        else send (.alert n.val 42)) s

/-! ## CAN frames (R52, R285, R287) -/

/-- A LOT request in a CAN frame: its header, and data without the padding that follows. -/
def canLot (p : Port) (f : CanFrame) : Script :=
  .dyn fun s =>
    if s.serves && decide (8 ≤ f.data.length) then lotMessage (.can p) (hdrOf f.data) (f.data.drop 8) else .skip

/-- CAN_FRAME_RECEIVED (R276, R285). -/
def execCanFrameReceived (p : Port) (f : CanFrame) (s : State) : Host.Outcome State Fault Refusal :=
  doesIf (fun s => s.canRuns p && (s.island iNW = 2 || s.island iNW = 3)
      && (s.o (R.portState p) = 1 || s.o (R.portState p) = 2 || s.o (R.portState p) = 5)
      && !(f.fdf && s.a (R.canMode p) = 0))
    (canDeliver p f (canLot p f)) s

/-- CAN_WAKE (R287): a dominant level of WAKE_FILTER_US, or a wake frame, which is then received. -/
def execCanWake (p : Port) (e : WakeEv) (s : State) : Host.Outcome State Fault Refusal :=
  doesIf (fun s => (s.island iNW = 2 || s.island iNW = 3) && s.o (R.portState p) = 4 && s.o (R.canRejoin p) != 1
      && match e with
        | .dominant us => s.a (R.wakeMode p) = 0 && decide (s.a (R.wakeFilterUs p) ≤ us)
        | .frame f => s.a (R.wakeMode p) = 1 && s.wakesBy p f)
    (match e with
     | .dominant _ => canWaken p 1
     | .frame f => .seq (canWaken p 2) (canDeliver p f (canLot p f))) s

end Sys2Proof.Machine
end

