-- ==== Sys2Proof/Machine/Commit.lean ====
section
/-!
DEFINITION. The commit model (spec/01_islands_and_frames.md R25–R31): the cut-offs, the consistency rules 01h to 71h with
what the chapters add to them, evaluation in R30's order, what an accepted evaluation changes at once, and the latch
boundary with the MET group (spec/08_metrology.md R190).
-/

namespace Sys2Proof.Machine

/-! ## Cut-offs (R26) -/

/-- At the start of sample 490 every shadow and the pending requests are taken; MET has its own cut-off. -/
def takeCutoff : Script :=
  .dyn fun s =>
    all [ upd fun d => { d with snap := ⟨s.shadow, d.reqs.filter (· != gMet)⟩, reqs := d.reqs.filter (· = gMet) },
          put R.snapTaken 1, lotCutoff ]

/-- COMMIT_CUTOFF (R26). -/
def execCommitCutoff (s : State) : Host.Outcome State Fault Refusal :=
  doesIf (fun s => s.next.val = 490 && s.o R.snapTaken != 1 && s.o R.inGap != 1 && decide (7 ≤ s.o R.startPhase)) takeCutoff s

/-! ## What a rule reads -/

/-- An object as the evaluation of group g sees it: the snapshot for its own objects, else the active copy as earlier
evaluations left it (R30). -/
def State.view (s : State) (g : Nat) (snap : Store) (k : Key) : Int :=
  if grpOf k = some g then snap.get dflt k else s.a k

/-- A failing rule: its code and the object it names first. -/
abbrev Fails := Option (Nat × Key)

/-- The first failing rule of a list. -/
def firstOf : List Fails → Fails
  | [] => none
  | none :: t => firstOf t
  | some x :: _ => some x

/-- A rule fails on the first of some objects for which a condition holds. -/
def failsAt {α : Type} (rule : Nat) (l : List α) (key : α → Key) (bad : α → Bool) : Fails :=
  (l.find? bad).map fun x => (rule, key x)

/-- A rule on one object. -/
def failsIf (rule : Nat) (k : Key) (bad : Bool) : Fails := if bad then some (rule, k) else none

/-! ## Rule 01h: ranges -/

/-- Values of an object that are listed rather than bounded. -/
def listed (k : Key) (v : Int) : Bool :=
  let ix := k / 256
  let sub := k % 256
  let chan := v = 255 || (0 ≤ v && v < 64)
  let inBlock := fun (b n : Nat) => b ≤ ix && ix < b + n
  if k = R.timeSourceOrder then [12, 8, 4].all (fun i => v / 2 ^ i % 16 ≤ 3) && v % 16 = 0
  else if k = R.reqIdBase then v % 0x40 = 0
  else if k = R.feIdBase then v % 0x10 = 0
  else if k = R.plPowerCap then v = 0 || 100 ≤ v
  else if k = R.swapDailyS then v = 4294967295 || v < 86400
  else if inBlock 0x3200 192 && sub = 2 then [16, 32, 64, 128, 256].contains v
  else if (inBlock 0x3480 48 && sub = 5) || (inBlock 0x3600 24 && sub = 0x23) then [16, 32, 64, 128, 256].contains v
  else if inBlock 0x3600 24 && sub = 0x1A then v = 0 || 1000000 ≤ v
  else if inBlock 0x3400 48 && sub = 8 then chan
  else if inBlock 0x3D00 24 && sub = 2 then v = 255 || (0 ≤ v && v < 8)
  else if inBlock 0x3D00 24 && (sub = 3 || sub = 5 || sub = 6) then chan
  else if inBlock 0x3D40 8 && 2 ≤ sub && sub ≤ 4 then chan
  else if inBlock 0x3D40 8 && 5 ≤ sub && sub ≤ 8 then v = 255 || (0 ≤ v && v < 32)
  else if inBlock 0x3E10 32 && sub = 6 then v = 0 || 10 ≤ v
  else if inBlock 0x3F10 16 && sub = 0x0A then chan
  else if inBlock 0x3F80 48 && sub = 1 then v = 255 || (0 ≤ v && v < 16)
  else if inBlock 0x3880 8 && sub = 1 then v = 255 || (0 ≤ v && v < 26)
  else if inBlock 0x4010 24 && sub = 2 then v = 255 || (v < 128 && v / 2 % 8 = 0)
  else true

/-- Whether a value lies in its object's range. -/
def inRange (k : Key) (v : Int) : Bool :=
  match findRow k with
  | some (_, r) => decide (r.lo ≤ v) && decide (v ≤ r.hi) && listed k v
  | none => false

/-- The lowest key of a list. -/
def lowest : List Key → Option Key
  | [] => none
  | k :: t => some (t.foldl min k)

/-- Whether the queue that an object names is of a class (R376). -/
def namesClass (v : Key → Int) (cls : Int) (k : Key) : Bool :=
  0 ≤ v k && v k < 64 && v (R.qClass (v k).toNat) = cls

/-- Objects that name a class B queue, by group; and those that name a class A queue, all of NET (R376). -/
def producers (g : Nat) : List Key :=
  if g = gNet then [R.vlEventQueue, R.canEventQueue 0, R.canEventQueue 1, R.canEventQueue 2, R.mplEventQueue, R.pairEventQueue,
    R.stEventQueue]
  else if g = gPlace then (upTo 4).map R.sglEventQueue ++ [R.hkEventQueue, R.fsEventQueue, R.batEventQueue]
  else if g = gSafe then [R.sfEventQueue]
  else if 240 ≤ g && g < 264 then [R.outEventQueue (g - 240)]
  else []
def consumersA : List Key := (upTo 192).map R.fltQueue ++ [R.mplRxQueue, R.tlmQueue]

/-- An entry of TLM_OBJ names no object, or an object of at most 8 bytes (R377). -/
def tlmOk (v : Int) : Bool :=
  v = 0 || (v < 16777216 && (match v.toNat % 256, findRow v.toNat with
    | 0, _ => (highestSub (v.toNat / 256)).isSome
    | _, some (_, r) => decide (v.toNat < 0x1000000) && decide (r.ty.bytes ≤ 8)
    | _, none => false))

/-- Objects of a group whose condition rests on another object, and whether the condition holds (the tables of the
chapters; R130, R144, R258, R277, R287, R290, R293, R301, R334, R335, R376, R377). -/
def crossChecks (s : State) (g : Nat) (v : Key → Int) : List (Key × Bool) :=
  if g < 192 then [(R.ocThresh g, v (R.iFs g) ≤ 16 * v (R.ocThresh g) && 16 * v (R.ocThresh g) ≤ 15 * v (R.iFs g))]
  else if g < 240 then
    let m := g - 192
    let fes := (upTo 8).filter fun r => s.a (R.feEnable r) = 1 && bit (s.a (R.feModules r)) m
    [(R.phaseOfs m, v (R.phaseOfs m) < pBase (s.a (R.carrierK (4 * m)))),
     (R.tlatchRel m, v (R.tlatchRel m) ≤ v (R.tlatchSet m) - 100),
     (R.linkOv m, v (R.linkOv m) ≤ v (R.linkVFs m)),
     (R.vinSource m, v (R.vinSource m) != 1 || fes.length = 1),
     (R.hsWarn m, v (R.hsWarn m) ≤ v (R.tlatchSet m) - 100)]
  else if g < 264 then
    let k := g - 240
    let ty := v (R.outletType k)
    let sel := v (R.modemSel k)
    [(R.outEventQueue k, namesClass v 1 (R.outEventQueue k)),
     (R.vawLo k, v (R.voutLo k) ≤ v (R.vawLo k) && v (R.vawLo k) ≤ 0),
     (R.vawHi k, 0 ≤ v (R.vawHi k) && v (R.vawHi k) ≤ v (R.voutHi k)),
     (R.restoreFill k, 2 * v (R.shedFill k) ≤ v (R.restoreFill k)),
     (R.burstExit k, 2 * v (R.burstEnter k) ≤ v (R.burstExit k)),
     (R.condTrip k, v (R.condWarn k) < v (R.condTrip k)),
     (R.contactTrip k, v (R.contactWarn k) < v (R.contactTrip k)),
     (R.modemSel k, ty != 2 || (sel != 255 && (upTo s.nOut).all fun j => j = k || s.a (R.modemSel j) != sel)),
     (R.tlsSlot k, !(ty = 1 || ty = 3) || v (R.tlsSlot k) != 255),
     (R.thBc k, v (R.thBc k) < v (R.thAb k)), (R.thCd k, v (R.thCd k) < v (R.thBc k)),
     (R.thDe k, v (R.thDe k) < v (R.thCd k)), (R.thEf k, v (R.thEf k) < v (R.thDe k))]
  else if g = gPlace then
    let ocvOk := fun t =>
      let x := (upTo 11).map fun j => v (R.ocv t j)
      x.all (· = 0) || (x.all (fun y => 1 ≤ y && y ≤ 1500000) && (upTo 10).all fun j => x.getD j 0 < x.getD (j + 1) 0)
    [(R.auxReserveW, 0 ≤ v R.auxReserveW && v R.auxReserveW ≤ max 0 (v R.importLimitW))]
      ++ (producers gPlace).map (fun k => (k, namesClass v 1 k))
      ++ ((upTo 128).filter fun x => x % 32 < 8).map (fun x => (R.gpCmd x, decide (v (R.gpCmd x) = 0)))
      ++ (upTo 16).flatMap fun t =>
        [(R.bsSocMin t, decide (v (R.bsSocMin t) ≤ v (R.bsSocMax t) - 100)),
         (R.bsTDisLo t, decide (v (R.bsTDisLo t) < v (R.bsTDisHi t))),
         (R.bsTChgLo t, decide (v (R.bsTChgLo t) < v (R.bsTChgHi t))), (R.ocv t 0, ocvOk t)]
  else if g = gNet then
    let mode := fun (c : Int) => c < 1 || 3 < c || v (R.canMode (c.toNat - 1)) = 1
    let others := fun (q : Nat) (cls : Int) =>
      -- a changed Q_CLASS leaves every naming object right
      ((upTo 24).map (fun k => R.outEventQueue k) ++ producers gPlace ++ producers gSafe ++ producers gNet).all
          (fun k => v k != (q : Int) || cls = 1)
        && consumersA.all fun k => v k != (q : Int) || cls = 0
    [(R.canLotPort, mode (v R.canLotPort)), (R.fePort, mode (v R.fePort)),
     (R.feTimeoutFrames, 2 * v R.fePeriodFrames ≤ v R.feTimeoutFrames),
     (R.txDelayUs, v R.txDelayUs + v R.txWidthUs ≤ 1000),
     (R.mplMode, v R.mplMode != 2 || v R.profile = 1)]
      ++ (upTo 3).map (fun p => (R.wakeMode p,
          v (R.wakeMode p) != 1 || 160 ≤ v (R.nbrp p) * (1 + v (R.ntseg1 p) + v (R.ntseg2 p))))
      ++ (producers gNet).map (fun k => (k, namesClass v 1 k))
      ++ consumersA.map (fun k => (k, namesClass v 0 k))
      ++ (upTo 8).map (fun j => (R.tlmObj j, tlmOk (v (R.tlmObj j))))
      ++ ((upTo 64).filter fun q => v (R.qClass q) != s.a (R.qClass q)).map (fun q => (R.qClass q, others q (v (R.qClass q))))
  else if g = gSafe then
    let gov := fun i => if v (R.siPair (i / 2 * 2)) = 1 then i / 2 * 2 else i
    [(R.tpWidthUs, decide (8 * v R.tpWidthUs ≤ v R.tpPeriodUs)), (R.sfEventQueue, namesClass v 1 R.sfEventQueue)]
      ++ (upTo 16).flatMap (fun i =>
        [(R.siTp i, !(v (R.siFunc (gov i)) = 1 && v (R.siTp i) = 4)),
         (R.siPair i, if i % 2 = 1 then decide (v (R.siPair i) = 0)
            else v (R.siPair i) != 1 || v (R.siTp i) = 4 || v (R.siTp i) != v (R.siTp (i + 1)))])
  else (upTo 8).map fun j => (R.pulseReg j, v (R.pulseReg j) < 2 || 24 ≤ v (R.pulseSrc j))

/-- Rule 01h. -/
def rule01 (s : State) (g : Nat) (snap : Store) : Fails :=
  let v := s.view g snap
  let own := (snap.filter fun e => grpOf e.1 = some g && shadowed e.1 && !inRange e.1 e.2).map (·.1)
  let cross := ((crossChecks s g v).filter fun c => !c.2).map (·.1)
  (lowest (own ++ cross)).map fun k => (1, k)

/-- Rule 02h: a value names an item that the part does not have. -/
def rule02 (s : State) (g : Nat) (v : Key → Int) : Fails :=
  if 192 ≤ g && g < 240 then
    failsAt 2 (upTo 8) (fun i => R.reach (g - 192) i) fun i =>
      v (R.reach (g - 192) i) != 255 && s.o R.outputsPresent ≤ v (R.reach (g - 192) i)
  else if g = gPlace then
    firstOf [ failsAt 2 (upTo 48) R.pinOutput fun m => v (R.pinOutput m) != 255 && s.o R.outputsPresent ≤ v (R.pinOutput m),
              failsAt 2 (upTo 8) R.loopOutputs fun j => (2 : Int) ^ s.nOut ≤ v (R.loopOutputs j) ]
  else if g = gNet then failsAt 2 (upTo 8) R.feModules fun r => (2 : Int) ^ s.nPm ≤ v (R.feModules r)
  else if g = gMet then
    failsAt 2 (upTo 8) R.pulseSrc fun j => s.o R.outputsPresent ≤ v (R.pulseSrc j) && v (R.pulseSrc j) < 24
  else none

/-- Rule 03h: what the mode matrix refuses (M5, M7); the entry is that of `matrixEntry`. -/
def rule03 (s : State) (g : Nat) (v : Key → Int) : Fails :=
  if g < 192 then failsIf 3 (R.chEnable g) ((s.lc = 0 || s.lc = 5) && v (R.chEnable g) = 1)
  else if g = gNet then
    failsIf 3 R.profile (v R.profile != s.a R.profile && (upTo s.nOut).any fun k => s.os k != osIdle)
  else none

/-- The entry of the mode matrix behind a rule 03h. -/
def matrixEntry (g : Nat) : Nat := if g < 192 then 7 else 5

/-! ## The rules of one group each -/

/-- Banks A and B of channel n in a view, with their first keys. -/
def banksOf (n : Nat) : List Key := [R.b0A n, R.b0B n]

/-- Rules 10h to 13h (R134, R142). A group with CH_ENABLE 0 passes whatever its banks hold.
[DEDUCED, log 11] -/
def rulesCh (n : Nat) (v : Key → Int) : Fails :=
  let on := v (R.chEnable n) = 1
  let sel := if v (R.bankSel n) = 1 then R.b0B n else R.b0A n
  let ok := fun (k lim : Key) => v (k + 7) ≤ v lim && v lim ≤ v (k + 8)
  firstOf [
    failsIf 0x10 (R.deadTicks n) (pBase (v (R.carrierK n)) / 2 < 2 * (v (R.deadTicks n) + 16)),
    failsIf 0x11 (R.chEnable n) (on && coefStatus (coefAt v sel) (v (sel + 11)) != 1),
    failsAt 0x12 (banksOf n) (· + 7) (fun k => on && v (k + 8) < v (k + 7)),
    failsAt 0x13 ((banksOf n).flatMap fun k => [(k, k + 9), (k, k + 10)]) (·.2) fun x => on && !ok x.1 x.2 ]

/-- Rules 21h and 22h.
[DEDUCED, log 11] -/
def rulesPm (s : State) (m : Nat) (v : Key → Int) : Fails :=
  let r := fun i => v (R.reach m i)
  firstOf [
    failsAt 0x21 (upTo 8) (R.reach m) (fun i => r i != 255 && (upTo i).any fun j => r j = r i),
    failsIf 0x22 (R.batPort m) (v (R.batPort m) = 1 && (upTo 8).any fun i => r i != 255),
    failsIf 0x22 (R.batString m) (v (R.batString m) != 255
      && (upTo 48).any fun j => j != m && s.a (R.batString j) = v (R.batString m)) ]

/-- Rules 30h to 34h (R9, R113).
[DEDUCED, log 11] -/
def rulesOut (s : State) (k : Nat) (v : Key → Int) : Fails :=
  let meter := 50000000000 / max 1 (s.a (R.shuntNohm k))
  let lim := min (min 4000000 meter) (if v (R.outletType k) = 1 then 3000000 else 4000000)
  firstOf [
    failsIf 0x30 (R.outReqV k) (v (R.outMaxV k) < s.o (R.outReqV k)),
    failsIf 0x30 (R.outMaxV k) (1500000 < v (R.outMaxV k)),
    failsIf 0x31 (R.outRatedI k) (lim < v (R.outRatedI k)),
    failsIf 0x32 (R.outerDiv k) (!([2, 4, 8, 16, 32, 64].contains (v (R.outerDiv k)))),
    failsAt 0x33 (upTo 6) (R.pvRate k + ·) (fun i => v (R.pvRate k + i) = 0),
    failsIf 0x34 (R.outHoRamp k) (v (R.outHoRamp k) < 1000 || 200000 < v (R.outHoRamp k)) ]

/-- Rules 40h to 43h (R115).
[DEDUCED, log 11] -/
def rulesPlace (s : State) (v : Key → Int) : Fails :=
  let paths := (upTo s.nPm).flatMap fun m => (upTo 8).map fun i => (m, i)
  let served := fun (m : Nat) => v (R.sglEnable (m / 12)) = 1 && bit (v (R.expEnable (m / 12))) (m % 12 / 2)
  firstOf [
    failsAt 0x40 paths (fun p => R.reach p.1 p.2) (fun p => s.a (R.reach p.1 p.2) != 255
      && (s.o R.outputsPresent ≤ s.a (R.reach p.1 p.2) || !served p.1)),
    failsAt 0x41 (upTo s.nPm) R.pinOutput (fun m => v (R.modMode m) = 1
      && !((upTo 8).any fun i => s.a (R.reach m i) = v (R.pinOutput m) && v (R.pinOutput m) != 255)),
    failsIf 0x42 R.hoMaxOut (4 < v R.hoMaxOut), failsIf 0x42 R.hoMaxSite (12 < v R.hoMaxSite),
    failsIf 0x43 R.importLimitW (v R.importLimitW = 0) ]

/-- Rules 50h to 53h (R277).
[DEDUCED, log 11] -/
def rulesNet (v : Key → Int) : Fails :=
  let bits := fun (k : Key) => v k * (1 + v (k + 1) + v (k + 2))
  let order := [v R.timeSourceOrder / 4096 % 16, v R.timeSourceOrder / 256 % 16, v R.timeSourceOrder / 16 % 16]
  let named := order.filter (· != 0)
  let addr := fun i => v (R.stAddr i)
  firstOf [
    firstOf ((upTo 3).map fun p => firstOf [
      failsIf 0x50 (R.nbrp p) (bits (R.nbrp p) < 80), failsIf 0x50 (R.nsjw p) (v (R.ntseg2 p) < v (R.nsjw p)),
      failsIf 0x50 (R.dbrp p) (bits (R.dbrp p) < 10), failsIf 0x50 (R.dsjw p) (v (R.dtseg2 p) < v (R.dsjw p)) ]),
    failsIf 0x51 R.timeSourceOrder (named.eraseDups.length != named.length
      || (order.takeWhile (· != 0)).length != named.length),
    failsAt 0x52 (upTo 62) R.stAddr (fun i => 62 < addr i || (addr i != 0 && (upTo i).any fun j => addr j = addr i)),
    failsIf 0x53 R.ptpPort (v R.ptpPort = 0 && order.contains 2) ]

/-- Rules 60h and 61h (R333).
[DEDUCED, log 11] -/
def rulesSafe (s : State) (v : Key → Int) : Fails :=
  let absent := fun (mask : Int) => mask != 255 && (upTo 8).any fun g => bit mask g && s.nPm ≤ 6 * g
  let own := (upTo 16).filter fun i => !(i % 2 = 1 && v (R.siPair (i - 1)) = 1)
  firstOf [
    failsAt 0x60 (upTo 16) R.siScoMask (fun i => absent (v (R.siScoMask i))),
    failsAt 0x60 (upTo s.nOut) R.outScoMask (fun k => absent (v (R.outScoMask k))),
    failsAt 0x61 own R.siFiltUs (fun i => (v (R.siFunc i) = 1 && v (R.siFiltUs i) < 500)
      || (v (R.siFunc i) = 2 && v (R.siFiltUs i) < 200)),
    failsAt 0x61 (upTo s.nOut) R.ovFiltUs (fun k => v (R.ovFiltUs k) < 20),
    failsAt 0x61 (upTo s.nOut) R.imdFiltUs (fun k => v (R.imdFiltUs k) < 10000) ]

/-- Rules 70h and 71h.
[DEDUCED, log 11] -/
def rulesMet (s : State) (v : Key → Int) : Fails :=
  firstOf [
    failsIf 0x70 R.latchN (v R.latchN < 1 || 255 < v R.latchN),
    failsAt 0x70 (upTo 8) R.pulseConst (fun j => v (R.pulseConst j) < 1 || 10000 < v (R.pulseConst j)),
    failsAt 0x71 (upTo s.nOut) R.shuntNohm (fun k => v (R.shuntNohm k) < 10000 || 50000 < v (R.shuntNohm k)) ]

/-- Every rule of a group but 20h, in table order. -/
def State.rules (s : State) (g : Nat) (snap : Store) : Fails :=
  let v := s.view g snap
  firstOf [
    rule01 s g snap, rule02 s g v, rule03 s g v,
    if g < 192 then rulesCh g v
    else if g < 240 then rulesPm s (g - 192) v
    else if g < 264 then rulesOut s (g - 240) v
    else if g = gPlace then rulesPlace s v
    else if g = gNet then rulesNet v
    else if g = gSafe then rulesSafe s v
    else rulesMet s v ]

/-- Rule 20h (R132): CARRIER_K against what the other channels of the module will hold after this PFB, and the four
groups accepted together where they change it. `due` are the groups evaluated at this PFB. -/
def State.carrierRule (s : State) (n : Nat) (snap : Store) (due : List Nat) : Fails :=
  let mates := (legs (n / 4)).filter (· != n)
  let now := fun j => s.a (R.carrierK j)
  let will := fun j => if due.contains j then snap.get dflt (R.carrierK j) else now j
  let fails := fun j => (s.rules j snap).isSome || ((legs (n / 4)).any fun i => will i != will j)
  failsIf 0x20 (R.carrierK n)
    ((mates.any fun j => will j != will n)
      || (will n != now n && mates.any fun j => due.contains j && will j != now j && fails j))

/-! ## What an accepted evaluation changes at once -/

/-- Expanders' general-purpose coils (R115), owners of field switches, links switched on and off. -/
def placeAccepted : Script :=
  .seq
    (.dyn fun s => each ((upTo 128).filter fun x => 8 ≤ x % 32) fun x => command x (s.a (R.gpCmd x)) false)
    (.seq fsOwners
      (each (upTo 4) fun l => .dyn fun s =>
        if s.a (R.sglEnable l) != 1 then put (R.sglLinkState l) 0
        else if s.o (R.sglLinkState l) = 0 then linkUp l else .skip))

/-- CAN ports, LOT transports, front ends, mains-pulse link and time source after a NET commit (R56, R279, R289, R303).
`was` is the state before it. -/
def netAccepted (was : State) : Script :=
  .dyn fun s =>
    let moved := fun (k : Key) => was.a k != s.a k
    let names := fun (t : State) (p : Nat) => (decide (t.a R.canLotPort = (p : Int) + 1), decide (t.a R.fePort = (p : Int) + 1))
    let can := fun (p : Nat) => (List.range 10).any (fun i => moved (R.canEnable p + i)) || names was p != names s p
    let lot := [R.canLotPort, R.nodeId, R.reqIdBase].any moved
    let udp := [R.udpPort, R.udpEthMask, R.readAnchorSlot, R.writeAnchorSlot].any moved
    all [
      if lot then closeTransports fun t => match t with | .can _ => true | _ => false else .skip,
      if udp then
        .seq (each s.d.assocs fun x => send (.alert x.num.val 0))
          (closeTransports fun t => match t with | .udp _ => true | _ => false)
      else .skip,
      each ((upTo 3).filter can) canReconf,
      feCommit,
      if (List.range 13).any (fun i => moved (R.mplMode + i)) then mplCommit else .skip,
      each ((upTo 62).filter fun i => moved (R.stAddr i)) stationCommit,
      timeSelect ]

/-- The active SAFE objects, little-endian, in ascending order (R344).
[DEDUCED, log 32] -/
def State.safeBytes (s : State) : List Nat :=
  let keys := (upTo 5).map (fun j => R.tpPeriodUs + j) ++ (upTo 16).flatMap (fun i => (upTo 7).map fun j => R.siFunc i + j)
    ++ (upTo s.nOut).flatMap fun k => (upTo 8).map fun j => R.ovLimit k + j
  keys.flatMap fun k => leBytes (tyOf k).bytes (s.a k % (256 ^ (tyOf k).bytes : Nat)).toNat

/-- A legally relevant object has changed: its audit count and its ledger entry (R176, R204).
[DEDUCED, log 29] -/
def paramChanged (k : Key) (old new : Int) : Script :=
  .dyn fun s =>
    let ix := k / 256
    let mtr := if ix < 0x3818 then ix - 0x3800 else if ix < 0x3842 then 24 + (ix - 0x3840) else 255
    .seq (put R.paramAudit (s.o R.paramAudit + 1))
      (writeEntry 4 mtr 0 ((old % 4294967296).toNat * 2 ^ 32 + k) (new % 18446744073709551616).toNat 0 s.frame)

/-- The consequences of an accepted evaluation; `changed` are the active values that differ after it. -/
def accepted (g : Nat) (changed : List Key) (load : Bool) (was : State) : Script :=
  if g < 192 then
    .dyn fun s => all [
      put (R.bankAStatus g) (coefStatus (coefAt s.a (R.b0A g)) (s.a (R.checkA g))),
      put (R.bankBStatus g) (coefStatus (coefAt s.a (R.b0B g)) (s.a (R.checkB g))),
      if s.o (R.loopRate g) = 0 then put (R.bankInUse g) (s.a (R.bankSel g)) else .skip,
      put (R.deadEff g) (s.a (R.deadTicks g) + deadAdder (s.o R.band)) ]
  else if g < 240 then .seq (if changed.isEmpty then .skip else put R.shDiscard 1) (refreshMod (g - 192))
  else if g < 264 then
    .dyn fun s => all [
      put R.outEval (((s.o R.outEval).toNat ||| 2 ^ (g - 240) : Nat) : Int),
      put (R.vcoefStatus (g - 240)) (coefStatus (coefAt s.a (R.vb0 (g - 240))) (s.a (R.vCheck (g - 240)))),
      genLimits (g - 240), refreshCable (g - 240) ]
  else if g = gPlace then .seq (if changed.isEmpty then .skip else put R.shDiscard 1) placeAccepted
  else if g = gNet then netAccepted was
  else if g = gSafe then
    all [ imdModes, refreshInputs, if changed.isEmpty || load then .skip else configTrip ]
  else
    .seq (each (changed.filter legal) fun k => .dyn fun s => paramChanged k (was.a k) (s.a k)) refreshMeters

/-! ## Evaluation (R27, R28, R58) -/

/-- COMMIT_RESULT. -/
def resultWord (status rule : Nat) (k : Key) (frame : Nat) : Nat :=
  status * 2 ^ 62 + rule * 2 ^ 48 + k / 256 % 65536 * 2 ^ 32 + k % 256 * 2 ^ 24 + frame % 2 ^ 24

/-- One evaluation of group g against a snapshot; `load` is R58's, `extra` what a rule beside the table of `rules` says.
[DEDUCED, log 11] -/
def evaluate (g : Nat) (snap : Store) (load : Bool) (extra : State → Fails) : Script :=
  .dyn fun s =>
    let res := match s.rules g snap with | some x => some x | none => extra s
    .seq
      (match res with
       | none =>
        let keys := (((s.active ++ snap).map (·.1)).filter fun k => grpOf k = some g && shadowed k).eraseDups
        let changed := keys.filter fun k => snap.get dflt k != s.a k
        all [ each changed fun k => putA k (snap.get dflt k),
              put (R.gResult g) (resultWord 1 0 0 s.frame), put (R.gFrame g) s.frame,
              accepted g changed load s, lotEvaluated g 0 ]
       | some (rule, k) =>
        all [ put (R.gResult g) (resultWord (if rule = 3 then 3 else 2) rule k s.frame), bump (R.gRejects g),
              if rule = 3 then .seq (refuse (matrixEntry g) (k / 256) .firmware) (put R.refusalSource (s.o (R.reqSrc g)))
              else .skip,
              if load then
                all [ put R.loadRejects (s.o R.loadRejects + 1),
                      if s.o R.loadRejects = 0 then put R.loadFirstReject (0x2100 + g : Nat) else .skip ]
              else .skip,
              lotEvaluated g rule ])
      (if g = gSafe then .dyn fun s => put R.safeCrc (crc32c s.safeBytes : Nat) else .skip)

/-- The order of R30. -/
def commitOrder : List Nat := [gSafe, gNet] ++ (upTo 48).map (192 + ·) ++ upTo 192 ++ (upTo 24).map (240 + ·) ++ [gPlace]

/-- Whether a group's item is present on the part (R5). -/
def State.hasGroup (s : State) (g : Nat) : Bool := !s.absent (R.gCommit g)

/-- The groups evaluated at the coming PFB: those requested, those with AUTO_COMMIT, and all of them at the load. -/
def State.dueGroups (s : State) : List Nat :=
  commitOrder.filter fun g => s.hasGroup g && (s.d.snap.reqs.contains g || s.o (R.gAuto g) = 1 || s.o R.loadEval = 1)

/-- COMMIT_EVALUATE (R30): every due group in order, against what the cut-off took. -/
def commitPfb : Script :=
  .dyn fun s =>
    let due := s.dueGroups
    let snap := s.d.snap.shadow
    all [ put R.shDiscard 0, put R.outEval 0,
          each due fun g => evaluate g snap (s.o R.loadEval = 1) fun t => if g < 192 then t.carrierRule g snap due else none,
          upd fun d => { d with snap := { d.snap with reqs := [] } }, put R.loadEval 0, put R.snapTaken 0 ]

/-- Grants of outputs whose group was accepted are clipped to their new caps (R30). -/
def clipGrants : Script :=
  .dyn fun s => each ((upTo 24).filter fun k => bit (s.o R.outEval) k && s.o (R.outCapI k) < s.o (R.outGrantI k)) fun k =>
    put (R.outGrantI k) (floorGrant (s.o (R.outCapI k)) (s.o (R.outMinI k)))

/-! ## The latch boundary (R26, R190) -/

/-- The MET group at a latch boundary: what the cut-off before it took; at the load, the loaded shadows.
[DEDUCED, log 29] -/
def metCommit : Script :=
  .dyn fun s =>
    let load := s.o R.loadEvalMet = 1
    if load || !s.d.metOld.reqs.isEmpty || s.o (R.gAuto gMet) = 1 then
      all [ upd fun d => { d with metOld := { d.metOld with reqs := [] } }, put R.loadEvalMet 0,
            evaluate gMet s.d.metOld.shadow load fun _ => none ]
    else .skip

/-- LATCH_BOUNDARY (R190, R191, R182, R356): registers are latched, the references compared, MET is evaluated and a
metrology key that waits takes its place. -/
def execLatchBoundary (ref0 ref1 ref2 : Int) (s : State) : Host.Outcome State Fault Refusal :=
  doesIf (fun s => s.mtRuns && s.o R.mtLatchDue = 1)
    (.seq (latchNow [ref0, ref1, ref2] metCommit) (vaultSwap true)) s

end Sys2Proof.Machine
end

