-- ==== Sys2Proof/Machine/Stamped.lean ====
section
/-!
DEFINITION. What a stamped input does when its sample has come (spec/01_islands_and_frames.md R17, R18, R35, R45):
every accepted write and every value from the field is applied here and nowhere else.
-/

namespace Sys2Proof.Machine

/-- The card slots of a module are emptied; LATCH_MASK stays (34C0h + m.0D). -/
def eraseCards (m : Nat) : Script :=
  all [ each (upTo 8) fun j => put (R.cardSlot m j) 0, put (R.newest m) 255, put (R.cardDirty m) 1 ]

/-- A write to a register that keeps nothing but has an effect of its own, by index and subindex; none for others. -/
def commandWrite (src : Src) (k : Key) (v : Int) : Option Script :=
  let ix := k / 256
  let sub := k % 256
  let n (base : Nat) := ix - base
  let on (base count subs : Nat) := base ≤ ix && ix < base + count && sub = subs
  if on 0x2100 268 1 then some (.seq (upd fun d => { d with reqs := d.reqs ++ [n 0x2100] })
                                     (put (R.reqSrc (n 0x2100)) (srcCode src)))
  else if on 0x2840 48 0x15 then some (applyQuarClear (n 0x2840))
  else if k = R.storeReq then some (put R.storeReqd 1)
  else if k = R.restoreDefaults then some applyRestoreDefaults
  else if k = R.domainOff then
    some (.dyn fun s => put R.domOff (((s.o R.domOff).toNat ||| v.toNat : Nat) : Int))
  else if k = R.domainOn then
    some (.dyn fun s => put R.domOn (((s.o R.domOn).toNat ||| v.toNat : Nat) : Int))
  else if k = R.resetReq then some (applyResetReq v)
  else if on 0x3600 24 0x1B then some (applyOutStop (n 0x3600))
  else if on 0x3600 24 0x1C then some (applyFaultClear (n 0x3600))
  else if on 0x3400 48 0x0D then some (applyLatchClear (n 0x3400))
  else if on 0x34C0 48 0x0D then some (eraseCards (n 0x34C0))
  else if k = R.driftClear then some applyDriftClear
  else if k = R.ledgerAck then some (applyLedgerAck v)
  else if k = R.ledgerRead then some (applyLedgerRead v)
  else if k = R.snapshotReq then some (applySnapshotReq v)
  else if on 0x3E10 32 0x10 then some (applyFsCmd (n 0x3E10) (v = 1))
  else if on 0x3E10 32 0x17 then some (applyFsClear (n 0x3E10))
  else if on 0x4408 9 6 then some (applyTxbRequest (n 0x4408 / 3) (n 0x4408 % 3))
  else if on 0x4408 9 7 then some (applyTxbAbort (n 0x4408 / 3) (n 0x4408 % 3))
  else if on 0x4404 3 0x0D then some (applyBusoffRecover (n 0x4404))
  else if on 0x4400 3 0x17 then some (put (R.canSleep (n 0x4400)) 1)
  else if on 0x4400 3 0x18 then some (canWaken (n 0x4400) 3)
  else if on 0x44E8 8 0x0D then some (put (R.feReset (n 0x44E8)) 1)
  else if k = R.bcastReq then some applyBcastReq
  else if k = R.rejoin then some applyRejoin
  else if k = R.swapReq then some applySwapReq
  else if k = R.alarmClear then some applyAlarmClear
  else if k = R.vaultCmd then some (applyVaultCmd v.toNat)
  else if k = R.meas7Extend then some (applyMeas7 v)
  else if k = R.lcTarget then some (applyLcTarget v)
  else if k = R.lcToken then some (applyLcToken v src)
  else if k = R.ownerAnchor then some (applyOwnerAnchor v)
  else if k = R.updCmd then some (applyUpdCmd v.toNat)
  else if k = R.updData then some (applyUpdData v)
  else if on 0x4C40 64 5 then some (applyQConsume (n 0x4C40) v)
  else if on 0x4C40 64 6 then some (applyQFlagClear (n 0x4C40))
  else if on 0x4C40 64 7 then some (applyQReset (n 0x4C40))
  else if k = R.stReq then some (applyStReq v.toNat)
  else if k = R.injPermitS then some (applyInjPermitS v)
  else if k = R.injToken then some (applyInjToken v)
  else if on 0x4E40 179 4 then some (applyInjStart (n 0x4E40))
  else if on 0x4E40 179 5 then some (applyInjStop (n 0x4E40))
  else none

/-- A write takes effect: on a shadow, on an RWL object without a group, on a register, or as a command (R25, R43). -/
def applyWrite (src : Src) (k : Key) (v : Int) : Script :=
  match commandWrite src k v with
  | some sc => sc
  | none => if shadowed k then putS k v else if plainRwl k then putA k v else put k v

/-- GRID_IMPORT_W enters, and the trim with it (R83). -/
def applyGridImport (w : Int) : Script :=
  .dyn fun s =>
    let limit := s.a R.importLimitW
    .seq (put R.grid w) (put R.trimW (clamp 0 limit (s.o R.trimW + rne (w - limit) 2)))

/-- A stamped value takes effect (R152 step 2). -/
def applyInput : Input → Script
  | .write src k v => applyWrite src k v
  | .fsCmd j on => applyFsCmd j on
  | .pilot k code => put (R.pilotState k) code
  | .present k pilot => applyPresent k pilot
  | .unplug k pilot => applyUnplug k pilot
  | .vehicle k m => applyVehicle k m
  | .linkFault k code => applyLinkFault k code
  | .hkReading c val status => applyHk c val status
  | .dieMax t own => applyDieMax t own
  | .inst k i v => applyInst k i v
  | .gridImport w => applyGridImport w
  | .aux l e r => applyAux l e r
  | .batId t present code => applyBatId t present code
  | .batCaps dis chg => applyBatCaps dis chg
  | .canFrame p f => applyCanFrame p f
  | .canOutcome p b st time => applyCanOutcome p b st time
  | .feReport r st fault vdc idc pac => applyFeReport r st fault vdc idc pac
  | .mplReply addr type blocks phase erased data corrected => applyMplReply addr type blocks phase erased data corrected
  | .mplLost addr cause => applyMplLost addr cause
  | .item q ws => enqueue q ws

/-- A stamped input with what its acceptance left waiting: the transaction that wrote it. -/
def applyStamped (x : Stamped) : Script :=
  .seq (applyInput x.inp) (match x.inp with | .write src k _ => lotLanded src x.tag k | _ => .skip)

/-- Whether a stamped input is due in the sample under way: its stamp names it, or one that has gone by without this
island (R17). -/
def State.isDue (s : State) (x : Stamped) : Bool := s.stampAhead x.frame x.sample ≤ 0

/-- R45's order among the inputs of one sample.
[DEDUCED, log 8] -/
def stampRank (x : Stamped) : Int :=
  (((x.code * 16 + x.inst : Nat) : Int) * 256 + x.tag) * 4294967296 + x.seq

/-- Step 2 of R152: the stamped inputs that are due leave the list and are applied in R45's order. In a pair the items
that they raise are written on both units alike (R304, R372).
[DEDUCED, log 8]
[DEDUCED, log 38] -/
def dueInputs : Script :=
  .dyn fun s =>
    let apply : Script :=
      .seq (upd fun d => { d with stamps := d.stamps.filter fun x => !s.isDue x })
        (each (sortBy stampRank (s.d.stamps.filter s.isDue)) applyStamped)
    if s.role = roleSolo then apply else all [ flush, apply, flushNow ]

/-- CROSSING_ARRIVAL (R17, R18): a stamped value is held until its stamp; one that comes after it is not applied, and
the island that it was for is in FAULT.
[DEDUCED, log 8] -/
def execCrossingArrival (toPl : Bool) (frame sample : Nat) (inp : Input) (s : State) : Host.Outcome State Fault Refusal :=
  doesIf (fun s => s.o R.caRun = 1 && decide (sample < 500))
    (.dyn fun s =>
      if 0 < s.stampAhead frame sample then
        .seq (upd fun d => { d with stamps := d.stamps ++ [⟨frame, sample, srcCode .firmware, 0, 0, (s.o R.seqNo).toNat, .firmware, inp⟩] })
          (bump R.seqNo)
      else crossOverrun toPl) s

end Sys2Proof.Machine
end

