-- ==== Sys2Proof/Machine/Sample.lean ====
section
/-!
DEFINITION. The control sample (spec/06_converter_loops.md R152; spec/95_what_each_step_holds.md). A sample's command
works at the sample's start and leaves `now` at its end, so that what comes between two samples happens at the second
one's boundary.
-/

namespace Sys2Proof.Machine

/-- What a change of gate ownership does to the shared buses (R288, R304). -/
def ownershipHook : Script :=
  .dyn fun s =>
    onlyIf (ofBool s.onBus != s.o R.wasOnBus)
      (all [ put R.wasOnBus (ofBool s.onBus), canRole, if s.onBus then mplTakeover else .skip ])

/-- At sample 0, after its stamped inputs: what the Shelver computes from, its round count (R35, R36, R72), and
PL_THROTTLE (R39). -/
def frameSnapshot : Script :=
  .dyn fun s =>
    all [ put R.plRounds s.rounds, if s.rounds < 64 then degrade 4 true else .skip, put R.shDone 0,
          .dyn fun s => upd fun d => { d with snap0 := s.objs, snapHo := s.d.handovers } ]

/-- What the CA island does in sample `sm` (R152), with the bits latched in it. -/
def caSample (sm : Nat) (sd : List (Nat × Nat)) : Script :=
  .dyn fun s => all [
    latchFilters sd,
    scoSample,
    dueInputs,
    each (upTo s.nOut) loadAbort,
    if sm = 0 then frameSnapshot else .skip,
    loopsSample sm,
    each (upTo s.nOut) fun k => .seq (cableTrack k) (renegTrack k),
    each (upTo 16) batTrack,
    handoverEvents,
    sendSample sm ]

/-- The sample counter one sample on. -/
def nextSample (s : State) : Fin 501 := if h : s.next.val + 1 < 501 then ⟨s.next.val + 1, h⟩ else 500

/-- CONTROL_SAMPLE (R152): `sd` are the bits of the bitstream inputs, input number and its bits of this sample, newest
in bit 0; the levels are those of SEL_FB and of the partner's CLAIM.
[DESIGN CHOICE, log 6] -/
def execControlSample (sd : List (Nat × Nat)) (selFb partnerClaim : Bool) (s : State) : Host.Outcome State Fault Refusal :=
  movesIf (fun s => decide (s.next.val < 500) && s.o R.inGap != 1 && decide (7 ≤ s.o R.startPhase)) nextSample
    (.dyn fun s =>
      let sm := s.sample
      all [
        if sm = 490 && s.o R.snapTaken != 1 then takeCutoff else .skip,
        pairLines selFb partnerClaim,
        if sm = 0 then resetSample else .skip,
        .dyn fun s => if s.o R.caRun = 1 then caSample sm sd else .skip,
        injTrack, ownTrack, ownershipHook,
        put R.now (s.now + 2000) ]) s

end Sys2Proof.Machine
end

