-- ==== Sys2Proof/Machine/Frame.lean ====
section
/-!
DEFINITION. The power-frame boundary (spec/01_islands_and_frames.md R19–R21; spec/95_what_each_step_holds.md).
-/

namespace Sys2Proof.Machine

/-- Operating hours of a module (2840h + m.19): a frame counts while a leg is CLOSED.
[DEDUCED, log 22] -/
def hoursPfb (m : Nat) : Script :=
  .dyn fun s =>
    let t := s.o (R.hourNs m) + 1000000
    if (s.closedLegs m).isEmpty then .skip
    else if 3600000000000 ≤ t then .seq (put (R.hourNs m) (t - 3600000000000)) (bump (R.modHours m))
    else put (R.hourNs m) t

/-- The weights of output k at a PFB (R93): over its connected modules; from level 3 of a shedding ladder on over the kept
ones (R161); in BURST its windows govern (R163).
[DEDUCED, log 22] -/
def weightsPfb (k : Nat) : Script :=
  .dyn fun s =>
    if s.o (R.llMode k) = 2 then .skip
    else if 3 ≤ s.o (R.shedLevel k) then
      onlyIf (s.o (R.rampOn k) != 1) (putWeights k (weightsOf s.frame ((s.llKept k).map fun m => (m, s.cmk m k))))
    else formWeights k

/-- An injection at point 147 (R388): the cross-check has failed once 3 ms have passed. -/
def crossCheckInjected : Script :=
  .dyn fun s => if s.injects 147 && decide (3000 ≤ s.usSince (s.o R.injNs)) then fullReset 3 else .skip

/-- R21: the frame number, a role change, the commit groups and what their acceptance, or a request that waits for a PFB,
brings with it; then the Shelver's result, and the band; then what the new frame runs with.
[DEDUCED, log 22] -/
def framePfb : Script :=
  .dyn fun s => all [
    upd fun d => { d with edges := d.edges.map fun e =>
      ⟨e.ch, e.start - 4000000, e.lFall - 4000000, e.hRise - 4000000, e.hFall - 4000000, e.lRise - 4000000⟩ },
    frameNumber, clockPfb,
    rolePfb, ownershipHook,
    commitPfb,
    each (upTo 192) channelPfb,
    domainPfb, resetPfb, restartPfb, storePfb, lifeCyclePfb, vaultSwap false,
    releasePfb, vehiclePfb, each (upTo s.nOut) outputPfb,
    handoverPfb,
    applyResult, clipGrants,
    releasesGoOn, enginePfb,
    each (upTo s.nPm) hoursPfb, each (upTo 48) refreshMod, each (upTo 24) refreshOut,
    bandPfb,
    each (upTo s.nOut) fun k => all [ loopPfb k, shedRampEnd k, shedStep k, burstEntry k, weightsPfb k ],
    each (upTo s.nPm) movePhase, .dyn fun s => placeCarriers s.frame,
    fieldPfb, batPfb, driftPfb, responseTimes, healthPfb, reconcilePfb, sumPfb,
    crossCheckInjected ]

/-- POWER_FRAME_BOUNDARY (R19, R21): the frame has run its 500 samples, or the gap of a frame step ends. -/
def execPowerFrameBoundary (s : State) : Host.Outcome State Fault Refusal :=
  movesIf (fun s => s.next.val = 500 && decide (7 ≤ s.o R.startPhase)) (fun _ => 0) framePfb s

end Sys2Proof.Machine
end

