-- ==== Sys2Proof/Machine/Start.lean ====
section
/-!
DEFINITION. The end of a start-up (spec/03_supplies_startup_reset.md R73–R75; spec/15_pair_operation.md R311): after the
steps that Startup.lean holds come the CA island with its first PFB, and the reconciliation of the contactors.
-/

namespace Sys2Proof.Machine

/-- Objects of the partition, in the order registered, while those that persist fit in 65,536 bytes (R60).
[DESIGN CHOICE, log 14] -/
def registered : List PartObj → Nat → List PartObj
  | [], _ => []
  | o :: t, used =>
    let n := used + (if o.persisted then o.len else 0)
    if n ≤ 65536 then o :: registered t n else registered t used

/-- FRAME_NO at the first PFB (R20).
[DEDUCED, log 15] -/
def State.firstFrame (s : State) (env : StartEnv) : Nat :=
  match env.siteTime, env.partner with
  | some _, _ => s.frameBySite.toNat
  | none, some p => if s.role = roleSuspect then p.frame % 4294967296 else 0
  | none, none => 0

/-- The SF island arms, or enters tripped where an input demands or an insulation monitor reports a fault (R75, R341); a
CONFIG trip that was latched when the configuration was stored stands again (R344).
[DEDUCED, log 15] -/
def startSafety (env : StartEnv) : Script :=
  .dyn fun s =>
    let low := (upTo 16).any fun i => s.siFn i != 0 && !env.safeIn.testBit i
    let config : Bool := match (s.folio 1 0).pick with | some (b, _) => decide (b.vals.getD 0 0 = 1) | none => false
    all [ put R.sfState 1,
          if low || env.imdFault != 0 then latch 255 17 0 255 true else .skip,
          if config then latch 255 8 0 255 true else .skip,
          refreshLatches ]

/-- Step 7: the CA island starts with every channel DISABLED; what was persisted goes to its first PFB (R58).
[DEDUCED, log 15] -/
def startCa (env : StartEnv) : Script :=
  all [
    stepBegins 7 env,
    .one (.forgetA fun k => shadowed k && grpOf k != some gMet),
    .dyn fun s => match env.siteTime with | some t => put R.siteOff ((t : Int) - s.now) | none => .skip,
    .dyn fun s => put R.frameNo ((s.firstFrame env + 4294967295) % 4294967296 : Nat),
    upd fun d => { d with partObjs := registered env.partReg 0, startEnv := none },
    each (upTo 12) fun i => .dyn fun s => onlyIf (s.island i = 1) (put (R.islandState i) 2),
    .dyn fun s => put R.sdclkActive (s.a R.sdclkDiv),
    caRuns, put R.selFb (ofBool env.selFb), .dyn fun s => put R.wasOnBus (ofBool s.onBus),
    put R.loadEval 1, put R.loadEvalMet 1,
    .dyn fun s => upd fun d => { d with snap := ⟨s.shadow, []⟩, metSnap := ⟨s.shadow, []⟩, metOld := ⟨s.shadow, []⟩ },
    framePfb, startSafety env ]

/-- Step 8 on a unit that drives; another leaves the contactors to its partner. -/
def startReconcile (env : StartEnv) : Script :=
  .dyn fun s =>
    if s.drives then .seq (put R.startPhase 8) (reconcileRead env.expanders)
    else .seq (put R.startPhase 9) (.dyn fun s => put R.startTimeUs (s.usSince (s.o R.startNs)))

/-- What follows the negotiation: nothing more where CA, PL, SF or MT failed its stocktake (R74). -/
def startGoesOn (env : StartEnv) : Script :=
  .dyn fun s =>
    if s.startHalts then upd fun d => { d with startEnv := none }
    else .seq (startCa env) (startReconcile env)

/-- START_UP (R73): the reset conditions have been clear for 1 ms. A unit of a pair whose partner does not answer stays in
step 6 until PAIR_NEGOTIATION_TIMEOUT.
[DEDUCED, log 15] -/
def execStartUp (env : StartEnv) (s : State) : Host.Outcome State Fault Refusal :=
  movesIf (fun s => s.o R.startPhase = 1) (fun _ => 0)
    (.seq (startSteps env)
      (.dyn fun s =>
        if s.o R.bootImage = 0 then .skip
        else if s.o R.pairOn = 1 && env.partner.isNone then upd fun d => { d with startEnv := some env }
        else .seq (negotiate env.partner env.partnerClaim) (startGoesOn env))) s

/-- PAIR_NEGOTIATION_TIMEOUT (R311): no answer within 2,000 ms. -/
def execPairNegotiationTimeout (s : State) : Host.Outcome State Fault Refusal :=
  doesIf (fun s => s.o R.startPhase = 6 && s.d.startEnv.isSome)
    (.dyn fun s =>
      match s.d.startEnv with
      | none => .skip
      | some env => all [ elapse 2000000, negotiate none env.partnerClaim, startGoesOn env ]) s

end Sys2Proof.Machine
end

