-- ==== Sys2Proof/Machine/Dispatch.lean ====
section
/-!
DEFINITION. One command, one meaning: `exec` takes each command to the definition that gives its effect.
-/

namespace Sys2Proof.Machine

def exec (i : Instr) (s : State) : Host.Outcome State Fault Refusal :=
  match i with
  | .controlSample sd selFb partnerClaim => Sys2Proof.Machine.execControlSample sd selFb partnerClaim s
  | .crossingArrival toPl frame sample inp => Sys2Proof.Machine.execCrossingArrival toPl frame sample inp s
  | .powerFrameBoundary => Sys2Proof.Machine.execPowerFrameBoundary s
  | .commitCutoff => Sys2Proof.Machine.execCommitCutoff s
  | .commit src g => Sys2Proof.Machine.execCommit src g s
  | .frameStep arrivals => Sys2Proof.Machine.execFrameStep arrivals s
  | .ptpMessage port domain m => Sys2Proof.Machine.execPtpMessage port domain m s
  | .fsyncEdge => Sys2Proof.Machine.execFsyncEdge s
  | .timeSourceLost t => Sys2Proof.Machine.execTimeSourceLost t s
  | .shelverFrame => Sys2Proof.Machine.execShelverFrame s
  | .handoverPreregDone h => Sys2Proof.Machine.execHandoverPreregDone h s
  | .preregTimeout h => Sys2Proof.Machine.execPreregTimeout h s
  | .handoverSelectorClosed h => Sys2Proof.Machine.execHandoverSelectorClosed h s
  | .selCloseTimeout h => Sys2Proof.Machine.execSelCloseTimeout h s
  | .handoverRampEnd h => Sys2Proof.Machine.execHandoverRampEnd h s
  | .handoverDrainDone h => Sys2Proof.Machine.execHandoverDrainDone h s
  | .drainStuck h => Sys2Proof.Machine.execDrainStuck h s
  | .handoverSelectorOpened h => Sys2Proof.Machine.execHandoverSelectorOpened h s
  | .selOpenTimeout h => Sys2Proof.Machine.execSelOpenTimeout h s
  | .dwellExpiry m => Sys2Proof.Machine.execDwellExpiry m s
  | .quarantineRelease m => Sys2Proof.Machine.execQuarantineRelease m s
  | .quarClear src m => Sys2Proof.Machine.execQuarClear src m s
  | .lotReadReq t h => Sys2Proof.Machine.execLotReadReq t h s
  | .lotWriteReq t h data => Sys2Proof.Machine.execLotWriteReq t h data s
  | .lotSegData t h data => Sys2Proof.Machine.execLotSegData t h data s
  | .lotSegAck t h => Sys2Proof.Machine.execLotSegAck t h s
  | .lotAbort t h => Sys2Proof.Machine.execLotAbort t h s
  | .lotUnknownService t h => Sys2Proof.Machine.execLotUnknownService t h s
  | .lotSegmentTimeout t tag => Sys2Proof.Machine.execLotSegmentTimeout t tag s
  | .lotLifetimeTimeout t tag => Sys2Proof.Machine.execLotLifetimeTimeout t tag s
  | .partitionVerdict t tag v => Sys2Proof.Machine.execPartitionVerdict t tag v s
  | .partitionTimeout t tag => Sys2Proof.Machine.execPartitionTimeout t tag s
  | .objectWrite src index sub data => Sys2Proof.Machine.execObjectWrite src index sub data s
  | .dtlsHandshake o => Sys2Proof.Machine.execDtlsHandshake o s
  | .storeConfig src val => Sys2Proof.Machine.execStoreConfig src val s
  | .restoreDefaults src val => Sys2Proof.Machine.execRestoreDefaults src val s
  | .powerOnReset cause => Sys2Proof.Machine.execPowerOnReset cause s
  | .startUp env => Sys2Proof.Machine.execStartUp env s
  | .reconcileOpen f => Sys2Proof.Machine.execReconcileOpen f s
  | .reconcileStuck f => Sys2Proof.Machine.execReconcileStuck f s
  | .metrologyDieReset => Sys2Proof.Machine.execMetrologyDieReset s
  | .aoPowerLoss => Sys2Proof.Machine.execAoPowerLoss s
  | .domainOff src mask => Sys2Proof.Machine.execDomainOff src mask s
  | .domainOn src mask => Sys2Proof.Machine.execDomainOn src mask s
  | .domainStarted d pass => Sys2Proof.Machine.execDomainStarted d pass s
  | .resetReqAp src => Sys2Proof.Machine.execResetReqAp src s
  | .resetReqCa src => Sys2Proof.Machine.execResetReqCa src s
  | .resetReqFull src => Sys2Proof.Machine.execResetReqFull src s
  | .apReset requested => Sys2Proof.Machine.execApReset requested s
  | .caReset requested => Sys2Proof.Machine.execCaReset requested s
  | .vehiclePresent k highMv lowMv heldUs => Sys2Proof.Machine.execVehiclePresent k highMv lowMv heldUs s
  | .unplug k highMv lowMv heldUs => Sys2Proof.Machine.execUnplug k highMv lowMv heldUs s
  | .contactorCloseTimeout k => Sys2Proof.Machine.execContactorCloseTimeout k s
  | .isoDwellExpiry k => Sys2Proof.Machine.execIsoDwellExpiry k s
  | .isoTimeout k => Sys2Proof.Machine.execIsoTimeout k s
  | .prechargeReady k => Sys2Proof.Machine.execPrechargeReady k s
  | .prechargeTimeout k => Sys2Proof.Machine.execPrechargeTimeout k s
  | .pauseTimeout k => Sys2Proof.Machine.execPauseTimeout k s
  | .outStop src k => Sys2Proof.Machine.execOutStop src k s
  | .rampDownEnd k => Sys2Proof.Machine.execRampDownEnd k s
  | .rampStuck k => Sys2Proof.Machine.execRampStuck k s
  | .weldPhasePass k => Sys2Proof.Machine.execWeldPhasePass k s
  | .weldPhaseTimeout k => Sys2Proof.Machine.execWeldPhaseTimeout k s
  | .faultContactorOpen k => Sys2Proof.Machine.execFaultContactorOpen k s
  | .faultClear src k => Sys2Proof.Machine.execFaultClear src k s
  | .sglCycle => Sys2Proof.Machine.execSglCycle s
  | .sglResponse l e r => Sys2Proof.Machine.execSglResponse l e r s
  | .sglResponseInvalid l e missing => Sys2Proof.Machine.execSglResponseInvalid l e missing s
  | .expanderLost l e => Sys2Proof.Machine.execExpanderLost l e s
  | .expanderReturned l e => Sys2Proof.Machine.execExpanderReturned l e s
  | .linkDown l => Sys2Proof.Machine.execLinkDown l s
  | .ocEvent n window => Sys2Proof.Machine.execOcEvent n window s
  | .hiccupEntry n => Sys2Proof.Machine.execHiccupEntry n s
  | .hiccupRetry n => Sys2Proof.Machine.execHiccupRetry n s
  | .cleanRunReset n => Sys2Proof.Machine.execCleanRunReset n s
  | .thermalRelease m => Sys2Proof.Machine.execThermalRelease m s
  | .linkOvTrip m => Sys2Proof.Machine.execLinkOvTrip m s
  | .linkOvRelease m => Sys2Proof.Machine.execLinkOvRelease m s
  | .latchClear src m => Sys2Proof.Machine.execLatchClear src m s
  | .burstWindow k => Sys2Proof.Machine.execBurstWindow k s
  | .engineSelfTest e pass => Sys2Proof.Machine.execEngineSelfTest e pass s
  | .degradeClear bit => Sys2Proof.Machine.execDegradeClear bit s
  | .mtSample dc grid => Sys2Proof.Machine.execMtSample dc grid s
  | .mainsCrossing => Sys2Proof.Machine.execMainsCrossing s
  | .zcTimeout => Sys2Proof.Machine.execZcTimeout s
  | .internalTick => Sys2Proof.Machine.execInternalTick s
  | .latchBoundary ref0 ref1 ref2 => Sys2Proof.Machine.execLatchBoundary ref0 ref1 ref2 s
  | .instReading => Sys2Proof.Machine.execInstReading s
  | .driftClear src val => Sys2Proof.Machine.execDriftClear src val s
  | .pulseStart j => Sys2Proof.Machine.execPulseStart j s
  | .pulseEnd j => Sys2Proof.Machine.execPulseEnd j s
  | .earlyWarning pfwIn vmetLow => Sys2Proof.Machine.execEarlyWarning pfwIn vmetLow s
  | .warningEnd => Sys2Proof.Machine.execWarningEnd s
  | .periodicTotalsSave => Sys2Proof.Machine.execPeriodicTotalsSave s
  | .vmetCut => Sys2Proof.Machine.execVmetCut s
  | .mtRecovery => Sys2Proof.Machine.execMtRecovery s
  | .ledgerEntrySigned => Sys2Proof.Machine.execLedgerEntrySigned s
  | .snapshotReq src meter => Sys2Proof.Machine.execSnapshotReq src meter s
  | .ledgerAck src seq => Sys2Proof.Machine.execLedgerAck src seq s
  | .ledgerRead src seq => Sys2Proof.Machine.execLedgerRead src seq s
  | .hkRoundStart => Sys2Proof.Machine.execHkRoundStart s
  | .hkRoundEnd ch die supply => Sys2Proof.Machine.execHkRoundEnd ch die supply s
  | .throttleStep => Sys2Proof.Machine.execThrottleStep s
  | .fsCmd src j on => Sys2Proof.Machine.execFsCmd src j on s
  | .fsDinEdge j high => Sys2Proof.Machine.execFsDinEdge j high s
  | .fsOverload j => Sys2Proof.Machine.execFsOverload j s
  | .fsOvertemp j => Sys2Proof.Machine.execFsOvertemp j s
  | .fsRestart j => Sys2Proof.Machine.execFsRestart j s
  | .fsRestartCountReset j => Sys2Proof.Machine.execFsRestartCountReset j s
  | .fsOpenOn j below => Sys2Proof.Machine.execFsOpenOn j below s
  | .fsOffDiagTest j mv1 mv2 => Sys2Proof.Machine.execFsOffDiagTest j mv1 mv2 s
  | .fsClear src j => Sys2Proof.Machine.execFsClear src j s
  | .fieldDieRestart => Sys2Proof.Machine.execFieldDieRestart s
  | .vfldOvervoltage => Sys2Proof.Machine.execVfldOvervoltage s
  | .fgndLoss => Sys2Proof.Machine.execFgndLoss s
  | .vfldReversed => Sys2Proof.Machine.execVfldReversed s
  | .batIdChange b r => Sys2Proof.Machine.execBatIdChange b r s
  | .batteryUpdate overran => Sys2Proof.Machine.execBatteryUpdate overran s
  | .settlingEnd b => Sys2Proof.Machine.execSettlingEnd b s
  | .restCorrection b => Sys2Proof.Machine.execRestCorrection b s
  | .fullAnchor b => Sys2Proof.Machine.execFullAnchor b s
  | .emptyAnchor b => Sys2Proof.Machine.execEmptyAnchor b s
  | .lowConfidenceSet b => Sys2Proof.Machine.execLowConfidenceSet b s
  | .batteryFolioSave b => Sys2Proof.Machine.execBatteryFolioSave b s
  | .seccDiscovery k tlsWanted => Sys2Proof.Machine.execSeccDiscovery k tlsWanted s
  | .tcpConnect k => Sys2Proof.Machine.execTcpConnect k s
  | .tlsHandshake k o => Sys2Proof.Machine.execTlsHandshake k o s
  | .sessionSetup k kind sessionId evccId protocol mode lim schedI => Sys2Proof.Machine.execSessionSetup k kind sessionId evccId protocol mode lim schedI s
  | .dcCableCheck k => Sys2Proof.Machine.execDcCableCheck k s
  | .dcPreCharge k v => Sys2Proof.Machine.execDcPreCharge k v s
  | .powerDeliveryStart k => Sys2Proof.Machine.execPowerDeliveryStart k s
  | .dcChargeLoop k lim => Sys2Proof.Machine.execDcChargeLoop k lim s
  | .powerDeliveryStop k => Sys2Proof.Machine.execPowerDeliveryStop k s
  | .dcWeldingDetection k => Sys2Proof.Machine.execDcWeldingDetection k s
  | .sessionStop k => Sys2Proof.Machine.execSessionStop k s
  | .messageTimeout k => Sys2Proof.Machine.execMessageTimeout k s
  | .sequenceTimeout k => Sys2Proof.Machine.execSequenceTimeout k s
  | .linkClosed k => Sys2Proof.Machine.execLinkClosed k s
  | .renegotiationDue k => Sys2Proof.Machine.execRenegotiationDue k s
  | .modemTransfer p sel req resp => Sys2Proof.Machine.execModemTransfer p sel req resp s
  | .slacMatch k atten => Sys2Proof.Machine.execSlacMatch k atten s
  | .slacTimeout k => Sys2Proof.Machine.execSlacTimeout k s
  | .canFrameReceived p f => Sys2Proof.Machine.execCanFrameReceived p f s
  | .txbRequest src p b => Sys2Proof.Machine.execTxbRequest src p b s
  | .txbAbort src p b => Sys2Proof.Machine.execTxbAbort src p b s
  | .canBusIdle p => Sys2Proof.Machine.execCanBusIdle p s
  | .canTxComplete p e => Sys2Proof.Machine.execCanTxComplete p e s
  | .canError p e => Sys2Proof.Machine.execCanError p e s
  | .busoffRecovered p => Sys2Proof.Machine.execBusoffRecovered p s
  | .busoffRecover src p => Sys2Proof.Machine.execBusoffRecover src p s
  | .timedTxDue p b => Sys2Proof.Machine.execTimedTxDue p b s
  | .sleepReq src p => Sys2Proof.Machine.execSleepReq src p s
  | .canSleepEntry p => Sys2Proof.Machine.execCanSleepEntry p s
  | .wakeReq src p => Sys2Proof.Machine.execWakeReq src p s
  | .canWake p e => Sys2Proof.Machine.execCanWake p e s
  | .canRejoin p => Sys2Proof.Machine.execCanRejoin p s
  | .feCommand => Sys2Proof.Machine.execFeCommand s
  | .feLost r => Sys2Proof.Machine.execFeLost r s
  | .feWriteReset src r => Sys2Proof.Machine.execFeWriteReset src r s
  | .mplCrossing ph => Sys2Proof.Machine.execMplCrossing ph s
  | .mplFrameReceived rx => Sys2Proof.Machine.execMplFrameReceived rx s
  | .mplPoll => Sys2Proof.Machine.execMplPoll s
  | .mplNoReply => Sys2Proof.Machine.execMplNoReply s
  | .bcastReq src => Sys2Proof.Machine.execBcastReq src s
  | .mplBeacon => Sys2Proof.Machine.execMplBeacon s
  | .mplSlotEnd => Sys2Proof.Machine.execMplSlotEnd s
  | .mplNoMains => Sys2Proof.Machine.execMplNoMains s
  | .mplMainsReturn => Sys2Proof.Machine.execMplMainsReturn s
  | .pairSample m l => Sys2Proof.Machine.execPairSample m l s
  | .pairMirror frame sample seq src inp l => Sys2Proof.Machine.execPairMirror frame sample seq src inp l s
  | .pairChecksum frame sum l => Sys2Proof.Machine.execPairChecksum frame sum l s
  | .pairMismatch frame sample mask l => Sys2Proof.Machine.execPairMismatch frame sample mask l s
  | .pairVerdict fault l => Sys2Proof.Machine.execPairVerdict fault l s
  | .fastDiagDone pass engine => Sys2Proof.Machine.execFastDiagDone pass engine s
  | .pairYield l => Sys2Proof.Machine.execPairYield l s
  | .pairSwapMsg frame l => Sys2Proof.Machine.execPairSwapMsg frame l s
  | .pairJoinSegment seg l => Sys2Proof.Machine.execPairJoinSegment seg l s
  | .joinComplete => Sys2Proof.Machine.execJoinComplete s
  | .pairSecret k secret l => Sys2Proof.Machine.execPairSecret k secret l s
  | .pairForward index sub src val l => Sys2Proof.Machine.execPairForward index sub src val l s
  | .heartbeatLost => Sys2Proof.Machine.execHeartbeatLost s
  | .takeoverDriveStart => Sys2Proof.Machine.execTakeoverDriveStart s
  | .selFbUnexpected => Sys2Proof.Machine.execSelFbUnexpected s
  | .selFbLost => Sys2Proof.Machine.execSelFbLost s
  | .pairNegotiationTimeout => Sys2Proof.Machine.execPairNegotiationTimeout s
  | .partnerAppears id => Sys2Proof.Machine.execPartnerAppears id s
  | .swapReq src => Sys2Proof.Machine.execSwapReq src s
  | .swapDailyDue => Sys2Proof.Machine.execSwapDailyDue s
  | .swapExecute => Sys2Proof.Machine.execSwapExecute s
  | .swapLapsed => Sys2Proof.Machine.execSwapLapsed s
  | .swapClaimFailed => Sys2Proof.Machine.execSwapClaimFailed s
  | .rejoin src => Sys2Proof.Machine.execRejoin src s
  | .alarmClear src => Sys2Proof.Machine.execAlarmClear src s
  | .sfCycle safeIn scoRead => Sys2Proof.Machine.execSfCycle safeIn scoRead s
  | .safetyDemand f => Sys2Proof.Machine.execSafetyDemand f s
  | .testPulse t high => Sys2Proof.Machine.execTestPulse t high s
  | .discrepancyFault n => Sys2Proof.Machine.execDiscrepancyFault n s
  | .imdClassify k periodUs highUs => Sys2Proof.Machine.execImdClassify k periodUs highUs s
  | .imdNoEdge k => Sys2Proof.Machine.execImdNoEdge k s
  | .ovDemand k => Sys2Proof.Machine.execOvDemand k s
  | .forcedContactorOpen k => Sys2Proof.Machine.execForcedContactorOpen k s
  | .sfDiagFault code => Sys2Proof.Machine.execSfDiagFault code s
  | .oscCrossCheckFail => Sys2Proof.Machine.execOscCrossCheckFail s
  | .safeReset lowUs highUs => Sys2Proof.Machine.execSafeReset lowUs highUs s
  | .safeResetTooLong => Sys2Proof.Machine.execSafeResetTooLong s
  | .sfDisagree => Sys2Proof.Machine.execSfDisagree s
  | .generate src => Sys2Proof.Machine.execGenerate src s
  | .importKey src => Sys2Proof.Machine.execImportKey src s
  | .verifyStage src => Sys2Proof.Machine.execVerifyStage src s
  | .stageCert src => Sys2Proof.Machine.execStageCert src s
  | .swapKey src => Sys2Proof.Machine.execSwapKey src s
  | .discardStage src => Sys2Proof.Machine.execDiscardStage src s
  | .deleteSlot src => Sys2Proof.Machine.execDeleteSlot src s
  | .extendMeas7 src => Sys2Proof.Machine.execExtendMeas7 src s
  | .generateBlob src => Sys2Proof.Machine.execGenerateBlob src s
  | .importBlob src => Sys2Proof.Machine.execImportBlob src s
  | .vaultCommandDone => Sys2Proof.Machine.execVaultCommandDone s
  | .meas7Extend src val => Sys2Proof.Machine.execMeas7Extend src val s
  | .ownerAnchor src val => Sys2Proof.Machine.execOwnerAnchor src val s
  | .beginUpd src => Sys2Proof.Machine.execBeginUpd src s
  | .updData src data => Sys2Proof.Machine.execUpdData src data s
  | .verifyUpd src => Sys2Proof.Machine.execVerifyUpd src s
  | .forwardWrap src => Sys2Proof.Machine.execForwardWrap src s
  | .activate src => Sys2Proof.Machine.execActivate src s
  | .confirm src => Sys2Proof.Machine.execConfirm src s
  | .cancel src => Sys2Proof.Machine.execCancel src s
  | .lcTarget src val => Sys2Proof.Machine.execLcTarget src val s
  | .lcToken src val => Sys2Proof.Machine.execLcToken src val s
  | .tamperBreach => Sys2Proof.Machine.execTamperBreach s
  | .folioWrite region folio => Sys2Proof.Machine.execFolioWrite region folio s
  | .folioWriteComplete region folio pass => Sys2Proof.Machine.execFolioWriteComplete region folio pass s
  | .qConsume src q n => Sys2Proof.Machine.execQConsume src q n s
  | .qReset src q val => Sys2Proof.Machine.execQReset src q val s
  | .qFlagClear src q => Sys2Proof.Machine.execQFlagClear src q s
  | .queueScrub errs => Sys2Proof.Machine.execQueueScrub errs s
  | .telemetryRecord => Sys2Proof.Machine.execTelemetryRecord s
  | .stReq src mask => Sys2Proof.Machine.execStReq src mask s
  | .stocktakeRunEnd n sig => Sys2Proof.Machine.execStocktakeRunEnd n sig s
  | .segmentStart => Sys2Proof.Machine.execSegmentStart s
  | .segmentEnd pass => Sys2Proof.Machine.execSegmentEnd pass s
  | .injStart src d => Sys2Proof.Machine.execInjStart src d s
  | .injStop src d => Sys2Proof.Machine.execInjStop src d s
  | .injPermitS src val => Sys2Proof.Machine.execInjPermitS src val s
  | .injToken src val => Sys2Proof.Machine.execInjToken src val s
  | .segmentAbandon => Sys2Proof.Machine.execSegmentAbandon s
  | .injectionHoldEnd => Sys2Proof.Machine.execInjectionHoldEnd s
  | .permitExpiry => Sys2Proof.Machine.execPermitExpiry s
  | .vfldLoss => Sys2Proof.Machine.execVfldLoss s
  | .vfldOvervoltageEnd => Sys2Proof.Machine.execVfldOvervoltageEnd s

end Sys2Proof.Machine
end

