-- ==== Sys2Proof/Machine/Step.lean ====
section
/-!
DEFINITION. One step of the block: the command at the front of its queue has its effect. With no command waiting the block
idles (assumption log 1).
-/

namespace Sys2Proof.Machine

/-- The command in front, on the state with the queue's rest; on an empty queue the state as it is.
[DESIGN CHOICE, log 1, DESIGN CHOICE, log 68] -/
def step (s : State) : Host.Outcome State Fault Refusal :=
  match s.pending with
  | [] => .next s
  | c :: rest => exec c { s with pending := rest }

/-- The state with the command that a word spells in front of its queue.
[DESIGN CHOICE, log 16] -/
def State.withFetchWord (s : State) (nbits w : Nat) : State :=
  match Sys2Proof.decodeTableWord nbits w with
  | some c => { s with pending := c :: s.pending }
  | none => s

end Sys2Proof.Machine
end

