-- ==== Sys2Proof/Safety.lean ====
section
/-!
DEFINITION. The terms in which statements speak of a run: what holds of every state that the machine can be left in, what a
command answers, and the effect of a command told in full.
-/

namespace Sys2Proof.Machine

/-- A store in canonical form whose values lie within their types (R11, R34, R41). -/
def Store.Good (st : Store) : Prop := st.wf dflt = true ∧ ∀ e ∈ st, norm e.1 e.2 = e.2

/-- What holds between commands: the three stores are canonical and typed, there are 64 queues of at most 1,024 words
(R371), and no raised item waits to be handed over. -/
structure State.Inv (s : State) : Prop where
  objs : s.objs.Good
  active : s.active.Good
  shadow : s.shadow.Good
  queues : s.queues.length = 64
  words : ∀ q ∈ s.queues, q.words.length ≤ 1024
  raised : s.d.raised = []

/-- The command answers a next state, of which P holds. -/
def Does (c : Instr) (s : State) (P : State → Prop) : Prop := ∃ t, exec c s = .next t ∧ P t

/-- The registers that count what a queue was given: Q_WRITTEN and Q_DROPPED (4C40h + q, .0B and .08). -/
def isQCount (k : Key) : Bool := 0x4C40 ≤ k / 256 && k / 256 < 0x4C80 && (k % 256 = 8 || k % 256 = 0x0B)

/-- The queues after one item for the queue that an object names (R371–R374). -/
def give (s : State) (qs : List Queue) (x : Key × List Nat) : List Queue :=
  let q := (s.a x.1).toNat
  if 64 ≤ q then qs
  else setAt qs q ((qs.getD q ⟨[], false, false, 0, 0⟩).add (s.a (classKey q) = 1) (s.o R.frameNo).toNat x.2).1

/-- The queues after a command's items, in R372's order. -/
def handOver (s : State) (items : List (Key × List Nat)) : List Queue := (sortRaised items).foldl (give s) s.queues

/-- An event word for the queue that object `k` names, raised in the frame under way. -/
def word (s : State) (k : Key) (ev item value : Nat) : Key × List Nat :=
  (k, [eventWord ev item value (s.o R.frameNo).toNat])

/-- The stamped input that an acceptance now leaves waiting (R17, R35, R45), with its sequence number. -/
def State.stampOf (s : State) (seq : Nat) (src : Src) (tag : Nat) (inp : Input) : Stamped :=
  ⟨s.dueAt.1, s.dueAt.2, srcCode src, srcInst src, tag, seq, src, inp⟩

/-- What the mirroring of an acceptance sends (R313): an ACTIVE unit and one that hands over mirror what they accept. -/
def State.mirrors (s : State) (seq : Nat) (src : Src) (inp : Input) : List Sent :=
  if s.o R.pairRole = 1 || s.o R.pairRole = 3 then [.mirror s.dueAt.1 s.dueAt.2 seq src inp] else []

/-- What an acceptance does beside the registers: the stamp waits, and the input is mirrored. -/
def State.takes (s : State) (src : Src) (tag : Nat) (inp : Input) (d : Data) : Data :=
  { d with
    stamps := d.stamps ++ [s.stampOf (s.o R.seqNo).toNat src tag inp]
    sent := d.sent ++ s.mirrors (s.o R.seqNo).toNat src inp }

/-- Whether this unit produces queue items for a pair (R372). -/
def State.produces (s : State) : Bool := s.o R.pairRole = 1 || (s.o R.pairRole = 3 && s.o R.swapRun != 2)

/-- The items of a producing unit of a pair, each stamped and mirrored with a sequence number of its own (R372). -/
def State.stampItems (s : State) : List (Key × List Nat) → Int → Data → Data
  | [], _, d => d
  | x :: l, n, d =>
    let inp : Input := .item (s.a x.1).toNat x.2
    s.stampItems l (n + 1) { d with
      stamps := d.stamps ++ [s.stampOf n.toNat .firmware 0 inp]
      sent := d.sent ++ s.mirrors n.toNat .firmware inp }

/-- The effect of a command, in full: each register of `l` reads the value given, brought into its type; every other
register but the queues' own counters, every active and shadow copy, the sample counter and the waiting commands are as
they were; what is not a register is as `f` makes it from what was there, with nothing sent before; and `items` go to the
queues on a SOLO unit, and in a pair are stamped by the unit that produces. -/
structure Effect (l : List (Key × Int)) (f : Data → Data) (items : List (Key × List Nat)) (s t : State) : Prop where
  reads : ∀ e ∈ l, t.o e.1 = norm e.1 e.2
  others : ∀ k, k ∉ l.map Prod.fst → isQCount k = false → k ≠ R.seqNo → t.o k = s.o k
  seqNo : R.seqNo ∉ l.map Prod.fst →
    t.o R.seqNo = s.o R.seqNo + (if s.produces then ((sortRaised (s.d.raised ++ items)).length : Int) else 0)
  active : t.active = s.active
  shadow : t.shadow = s.shadow
  next : t.next = s.next
  pending : t.pending = s.pending
  data : t.d = { (if s.produces then s.stampItems (sortRaised (s.d.raised ++ items)) (s.o R.seqNo)
    (f { s.d with sent := [] }) else f { s.d with sent := [] }) with raised := [] }
  queues : t.queues = if s.o R.pairRole = 0 then handOver s (s.d.raised ++ items) else s.queues

/-- The effect of a command that writes registers and nothing else. -/
def Sets (l : List (Key × Int)) (s t : State) : Prop := Effect l (fun d => d) [] s t

/-- What stays in every command that commits nothing: the active and shadow copies, the sample counter, the waiting
commands. -/
structure KeepsCopies (s t : State) : Prop where
  active : t.active = s.active
  shadow : t.shadow = s.shadow
  next : t.next = s.next
  pending : t.pending = s.pending

/-- The change that a part of a command makes, in full: each register of `l` reads the value given, brought into its type;
every other register, every copy, the sample counter, the waiting commands and the queues are as they were, and what is not
a register is as `f` makes it. -/
structure Change (l : List (Key × Int)) (f : Data → Data) (s t : State) : Prop where
  reads : ∀ e ∈ l, t.o e.1 = norm e.1 e.2
  others : ∀ k, k ∉ l.map Prod.fst → t.o k = s.o k
  active : t.active = s.active
  shadow : t.shadow = s.shadow
  next : t.next = s.next
  pending : t.pending = s.pending
  queues : t.queues = s.queues
  data : t.d = f s.d

/-- Whether a key is one register of the first `n` items. -/
def fam (r : Nat → Key) (n : Nat) (k : Key) : Prop := ∃ i, i < n ∧ k = r i

/-- The frame of a command with many registers: each of `l` reads the value given, brought into its type; beside these only
registers of the families `may`, the queues' counters and the sequence number can change, and no copy changes. -/
structure Within (l : List (Key × Int)) (may : List (Key → Prop)) (s t : State) : Prop where
  reads : ∀ e ∈ l, t.o e.1 = norm e.1 e.2
  others : ∀ k, k ∉ l.map Prod.fst → (∀ p ∈ may, ¬ p k) → isQCount k = false → k ≠ R.seqNo → t.o k = s.o k
  copies : KeepsCopies s t

/-- The registers that a session may move as it enters a state or ends (R104–R113). -/
def sessionRegs : List (Key → Prop) :=
  [fam R.chIRef 192, fam R.chRef 192, fam R.chShed 192, fam R.chState 192, fam R.chZ1 192, fam R.chZ2 192,
   fam R.contactors 24, fam R.expCmd 128, fam R.expConf 128, fam R.expKind 128, fam R.expLeft 128,
   (fun key => ∃ i, i < 128 ∧ fam (R.expOffAt i) 16 key), fam R.isoResult 24, fam R.linkFault 24, fam R.llAbort 24,
   fam R.llBurstNs 24, fam R.llClamped 24, fam R.llCount 24, fam R.llMode 24, fam R.llNs 24, fam R.llRamp 24,
   fam R.llRole 192, fam R.modOff 48, fam R.modShare 48, fam R.outCmdNs 24, fam R.outEndCause 24, fam R.outGone 24,
   fam R.outHoldNs 24, fam R.outIsoMin 24, fam R.outIsoV 24, fam R.outLim 24, fam R.outLinkLost 24, fam R.outMinI 24,
   fam R.outNs 24, fam R.outPauseNs 24, fam R.outPend 24, fam R.outPendCause 24, fam R.outPhase 24, fam R.outPhaseDone 24,
   fam R.outPhaseNs 24, fam R.outQuietNs 24, fam R.outRate 24, fam R.outReady 24, fam R.outReqI 24, fam R.outReqV 24,
   fam R.outState 24, fam R.outVehOpen 24, fam R.outWant 24, fam R.outZeroNs 24, fam R.piA 24, fam R.piP 24, fam R.piV 24,
   fam R.piValue 24, fam R.pvA 24, fam R.pvP 24, fam R.pvV 24, fam R.pvValue 24, fam R.rampOn 24, fam R.sessionNo 24,
   fam R.shedLevel 24, fam R.slacDone 24, fam R.stateFrame 24]

/-- The registers that a latch of the safety island shows in (R333). -/
def latchRegs : List (Key → Prop) :=
  [fam R.outLock 24, fam R.outTripCause 24, (· = R.scoCut), (· = R.sfState), (· = R.sfTripCount), (· = R.tripCause)]

/-- The registers that a handover which fails may move, with the quarantine of its module (R96, R102). -/
def quarRegs : List (Key → Prop) :=
  [fam R.chIRef 192, fam R.chRef 192, fam R.chState 192, fam R.chZ1 192, fam R.chZ2 192, fam R.dwellEnd 48,
   fam R.expCmd 128, fam R.expConf 128, fam R.expHold 128, fam R.expKind 128, fam R.expLeft 128,
   (fun key => ∃ i, i < 128 ∧ fam (R.expOffAt i) 16 key), fam R.handover 12, (· = R.hoInFlight), fam R.modCapW 48,
   fam R.modConn 48, fam R.modFlags 48, fam R.modOff 48, fam R.modOutput 48, fam R.modShare 48, fam R.modState 48,
   fam R.nodeState 48, fam R.outGrantI 24, fam R.outModules 24, fam R.outShortfall 24, fam R.quarCause 48,
   fam R.quarCount 48, fam R.quarNs 48]

/-- What lets a write of `v` to the object `k` in (R43, R49, R53): the firmware serves, and neither the object nor the value
is refused. -/
structure Accepts (src : Src) (k : Key) (v : Int) (s : State) : Prop where
  serves : s.serves = true
  object : s.keyRefusal src k = none
  value : s.valueRefusal k v = none

/-- An accepted write waits for its stamp, and is mirrored (R35, R45, R313). -/
def Waits (src : Src) (k : Key) (v : Int) (s : State) : State → Prop :=
  Effect [(R.seqNo, s.o R.seqNo + 1)] (s.takes src 0 (.write src k v)) [] s

/-- The data of an IMPORT: the first DATA_LEN bytes of DATA (R354). -/
def State.importData (s : State) : List Nat := (leBytes 2048 (s.o R.vaultData).toNat).take (s.o R.vaultLen).toNat

/-- A write to VAULT_CMD that is refused as out of range: RESULT 3 and the answer (R354, R355). -/
def RefusesCommand (src : Src) (s : State) : State → Prop :=
  Effect [(R.vaultResult, 3)] (fun d => { d with sent := [.refusedWrite src 0x22 0] }) [] s

/-- An accepted write that acts on this unit alone waits for its stamp, and is not mirrored (R314). -/
def WaitsHere (src : Src) (k : Key) (v : Int) (s : State) : State → Prop :=
  Effect [(R.seqNo, s.o R.seqNo + 1)]
    (fun d => { d with stamps := d.stamps ++ [s.stampOf (s.o R.seqNo).toNat src 0 (.write src k v)] }) [] s

/-- The registers of a CAN port that a frame of the firmware goes through (R281, R287): its transmit buffer, and its waking. -/
def canSends : List (Key → Prop) :=
  [fam R.txbId 9, fam R.txbFlags 9, fam R.txbLen 9, fam R.txbData 9, fam R.txbTime 9, fam R.txbState 9, fam R.txbAttempts 9,
   fam R.txbStop 9, fam R.canSleep 3, fam R.canRejoin 3, fam R.wakeCount 3, fam R.wakeCause 3]

/-- What a LOT message comes to: the messages answered, the transactions open after it, and nothing else but, over CAN FD,
the registers of the buffer that carries the answer. (An answer that wakes a port of a pair also mirrors the event word.) -/
structure Answers (t : Inst) (l : List (LotHdr × List Byte)) (open' : List Txn) (s u : State) : Prop where
  sent : s.d.raised = [] → (s.o R.pairRole = 0 ∨ ∀ p, t ≠ .can p) → u.d.sent = l.map fun x => .lot t x.1 x.2
  txns : u.d.txns = open'
  stamps : s.d.raised = [] → (s.o R.pairRole = 0 ∨ ∀ p, t ≠ .can p) → u.d.stamps = s.d.stamps
  assocs : u.d.assocs = s.d.assocs
  registers : Within [] canSends s u

/-- The ABORT that answers a message (R49). -/
def abortOf (h : LotHdr) (code detail : Nat) : LotHdr × List Byte :=
  ({ h with service := 7, last := false, segmented := false, shadow := false, length := 4 },
   [code % 256, code / 256, detail % 256, detail / 256].map (BitVec.ofNat 8))

/-- The open transactions but that of a tag on an instance. -/
def State.without (s : State) (t : Inst) (tag : Nat) : List Txn := s.d.txns.filter fun x => !(x.inst = t && x.tag = tag)

/-- The transactions open on an instance. -/
def State.openOn (s : State) (t : Inst) : List Txn := s.d.txns.filter fun x => x.inst = t

/-- The transactions with that of a tag on an instance in a new form. -/
def State.with (s : State) (x : Txn) : List Txn := s.d.txns.map fun y => if y.inst = x.inst && y.tag = x.tag then x else y

/-- A LOT write whose whole value has come: the transactions are as given, the write waits for its stamp, and no register but
the sequence number moves. -/
def LandsLater (x : Txn) (txns : List Txn) (k : Key) (v : Int) (s u : State) : Prop :=
  u.d.txns = txns ∧
    u.d.stamps = s.d.stamps ++ [s.stampOf (s.o R.seqNo).toNat (srcOfInst x.inst) x.tag (.write (srcOfInst x.inst) k v)] ∧
    u.o R.seqNo = s.o R.seqNo + 1 ∧ Within [] [] s u

/-- The part's counts lie within the family's (R5): at most 24 outputs, 48 modules and 192 channels. -/
structure State.Fits (s : State) : Prop where
  outputs : s.nOut ≤ 24
  modules : s.nPm ≤ 48
  channels : s.nCh ≤ 192

/-- The registers that a fault card of a module is written to (R173, R174). -/
def cardRegs (m : Nat) : List (Key → Prop) :=
  [fam (R.cardSlot m) 8, (· = R.newest m), (· = R.lastCardNo m), (· = R.modTripCount m), (· = R.cardDirty m)]

/-- The registers that show a module's state and capability, and those of its four legs (R80, R127, R149). -/
def modRegs (m : Nat) : List (Key → Prop) :=
  [(· = R.modState m), (· = R.modCapW m), (· = R.modFlags m), (· = R.modOff m),
   fam (fun i => R.chState (4 * m + i)) 4, fam (fun i => R.chZ1 (4 * m + i)) 4, fam (fun i => R.chZ2 (4 * m + i)) 4,
   fam (fun i => R.chRef (4 * m + i)) 4, fam (fun i => R.chIRef (4 * m + i)) 4, fam (fun i => R.retryCount (4 * m + i)) 4]

/-- The registers of an expander that commanding its coils moves (R121). -/
def coilRegs (x : Nat) : List (Key → Prop) :=
  [(· = R.expCmd x), (· = R.expLeft x), (· = R.expKind x), (· = R.expConf x), fam (R.expOffAt x) 16]

/-- A vehicle's request on link k (R250, R252): where its state allows it, it is counted and timed, and waits for its stamp;
elsewhere it is answered with a sequence error, and the link's fault 4 waits for its stamp. -/
def Asks (c : Instr) (k : Out) (allowed : Prop) (m : VehMsg) (s : State) : Prop :=
  (allowed → Does c s (Effect
    [(R.msgRx k, s.o (R.msgRx k) + 1), (R.vlMsgNs k, s.o R.now), (R.seqNo, s.o R.seqNo + 1)]
    (s.takes .firmware 0 (.vehicle k m)) [] s)) ∧
  (¬ allowed → Does c s (Effect [(R.seqNo, s.o R.seqNo + 1)]
    (fun d => s.takes .firmware 0 (.linkFault k 4) { d with sent := d.sent ++ [.vehicle k vkSequenceError []] }) [] s))

/-- The state after an accepted write has taken effect at its stamp (R152 step 2). -/
def applied (src : Src) (k : Key) (v : Int) (s : State) : State := (applyInput (.write src k v)).run s

/-- The data with the handover of `h`'s entry as `h` says. -/
def withHo (h : Handover) (d : Data) : Data :=
  { d with handovers := d.handovers.map fun x => if x.slot = h.slot then h else x }

/-- Module m is taken out of service with a cause (R102): the registers of its quarantine, and what it gives up. -/
structure Quarantined (m : Nat) (cause : Int) (s t : State) : Prop where
  why : t.o (R.quarCause m) = cause
  since : t.o (R.quarNs m) = s.o R.now
  count : t.o (R.quarCount m) = norm (R.quarCount m) (if s.o (R.quarCause m) = cause then s.o (R.quarCount m) + 1 else 1)
  shown : 0 ≤ s.o R.now → t.o (R.modState m) = msQuarantined ∨ t.o (R.modState m) = msOffline
  output : t.o (R.modOutput m) = 255
  share : t.o (R.modShare m) = 0
  conn : t.o (R.modConn m) = 0
  gates : ∀ n ∈ legs m, t.o (R.chState n) ≠ csClosed
  inFlight : t.d.handovers = s.d.handovers.filter fun h => h.inc != m && h.out != m
  others : ∀ j, j < 48 → j ≠ m → t.o (R.quarCause j) = s.o (R.quarCause j) ∧ t.o (R.modOutput j) = s.o (R.modOutput j)
  registers : Within [] quarRegs s t

/-- Output k enters a state by a cause, now (R104–R106): OUT_STATE, OUT_END_CAUSE and STATE_FRAME, and the output's event
word on a SOLO unit; no other output moves. -/
structure Entered (k : Nat) (st cause : Int) (s t : State) : Prop where
  state : t.o (R.outState k) = st
  why : t.o (R.outEndCause k) = cause
  frame : t.o (R.stateFrame k) = norm (R.stateFrame k) (s.o R.frameNo).toNat
  others : ∀ j, j < 24 → j ≠ k → t.o (R.outState j) = s.o (R.outState j) ∧ t.o (R.outEndCause j) = s.o (R.outEndCause j)
  registers : Within [] (sessionRegs ++ latchRegs) s t

/-- The registers in which a change of a meter's STATUS shows (R202, R203). -/
def meterShown : List (Key → Prop) :=
  [fam R.dcStatus 24, fam R.gpStatus 2, fam R.dcSessState 26, fam R.mSessNb 26, (· = R.ledgerDropped), (· = R.ledgerSeq),
   (· = R.mtFull)]

/-- The registers that a sample's energy goes to, with the pulse outputs that follow them (R185, R193, R195). -/
def energyRegs : List (Key → Prop) :=
  [fam R.mSumP 26, fam R.mN 26, fam R.mOver 26, fam R.mImp 26, fam R.mExp 26, fam R.mResImp 26, fam R.mResExp 26,
   fam R.mSessImp 26, fam R.mSessExp 26, fam R.puAcc 8, fam R.puCnt 8, fam R.pulseBacklog 8, fam R.pulseOverrange 8]

/-- The registers of a session's meter record (R203, R204). -/
def sessionMeter : List (Key → Prop) :=
  [fam R.dcSessStartSeq 26, fam R.mSessOver 26, fam R.mSessCtx 26, fam R.mSessId 26, fam R.mSessNo 26]

/-- Energy imported at a meter since the start, in pW·samples: the register and its residue (R185). -/
def State.imported (s : State) (q : Nat) : Int := s.o (R.mImp q) * mwhK + s.o (R.mResImp q)

/-- Energy exported. -/
def State.exported (s : State) (q : Nat) : Int := s.o (R.mExp q) * mwhK + s.o (R.mResExp q)

/-- The power of a DC meter's sample, 0 below its starting current (R185). -/
def State.dcPower (s : State) (x : DcSample) : Int :=
  if ((s.dcConv x).1.natAbs : Int) < s.a (R.dcINom x.k) then 0 else (s.dcConv x).2.1 * (s.dcConv x).1

/-! ## The terms of single statements -/

/-- What an invalid cycle of an expander counts (R123). -/
def State.badCycle (s : State) (l e : Nat) (missing : Bool) : List (Key × Int) :=
  [if missing then (R.noResponse l, s.o (R.noResponse l) + 1) else (R.crcErrors l, s.o (R.crcErrors l) + 1),
   (R.expFlags (expNo l e), withBit (s.o (R.expFlags (expNo l e))) 4 true),
   (R.expBad (expNo l e), s.o (R.expBad (expNo l e)) + 1), (R.expGood (expNo l e), 0)]

/-- A tick of the latch interval (R189, R190): LATCH_N ticks make a latch boundary due. -/
def Ticks (s t : State) : Prop :=
  t.o R.mtLastTick = s.o R.mtNo ∧
  (s.a R.latchN ≤ s.o R.mtTickN + 1 → t.o R.mtTickN = 0 ∧ t.o R.mtLatchDue = 1) ∧
  (s.o R.mtTickN + 1 < s.a R.latchN → t.o R.mtTickN = s.o R.mtTickN + 1 ∧ t.o R.mtLatchDue = s.o R.mtLatchDue)

/-- The registers of a tick. -/
def tickRegs : List (Key → Prop) := [(· = R.mtLastTick), (· = R.mtTickN), (· = R.mtLatchDue)]

/-- The registers that a whole mains cycle fills (R187, R188), with the pulse outputs that follow its energies. -/
def cycleRegs : List (Key → Prop) :=
  [fam R.mFImp 26, fam R.mFExp 26, fam R.mFResImp 26, fam R.mFResExp 26, fam (R.mQ 24) 4, fam (R.mQ 25) 4, fam (R.mQRes 24) 4, fam (R.mQRes 25) 4,
  fam R.gCyc 2, fam R.gFreq 2, fam (R.gP1 0) 3, fam (R.gP1 1) 3, fam (R.gQ1 0) 3, fam (R.gQ1 1) 3, fam (R.gThdV 0) 3, fam (R.gThdV 1) 3,
  fam (R.gThdI 0) 3, fam (R.gThdI 1) 3, fam (R.gThdN 0) 6, fam (R.gThdN 1) 6, fam R.puAcc 8, fam R.puCnt 8, fam R.pulseBacklog 8, fam R.pulseOverrange 8]

/-- The registers in which a field switch shows its state, but its fault (R230, R234). -/
def switchRegs : List (Key → Prop) :=
  [fam R.fsState 32, fam R.fsOn 32, fam R.fsOnNs 32, fam R.fsFault 32, (· = R.fsOnMask), (· = R.fsFaultMask)]

/-- A channel shows a state with its pair, on or off (R230). -/
def Shows (j : Nat) (st on : Int) (s t : State) : Prop :=
  ∀ i ∈ s.fsGroup j, t.o (R.fsOn i) = on ∧ t.o (R.fsState i) = (if i = s.fsGov j then st else 4) ∧
    t.o (R.fsOnNs i) = (if on = 1 then s.o R.now else -1)

/-- Every FS_FAULT holds a value of its type. -/
def FaultsTyped (s : State) : Prop := ∀ i, i < 32 → norm (R.fsFault i) (s.o (R.fsFault i)) = s.o (R.fsFault i)

/-- What a source comes to (R227): below every fault the channel follows its source. -/
def Follows (j : Nat) (s t : State) : Prop :=
  let g := s.fsGov j
  let held := s.fldRuns = false ∨ s.o (R.fsState g) = 2 ∨ s.o (R.fsState g) = 3
  (held → ∀ i, i < 32 → t.o (R.fsOn i) = s.o (R.fsOn i) ∧ t.o (R.fsState i) = s.o (R.fsState i)) ∧
  (¬ held → t.fsDemand j = true → s.o (R.fsState g) ≠ 1 → Shows j 1 1 s t) ∧
  (¬ held → t.fsDemand j = false → s.o (R.fsState g) ≠ 0 → Shows j 0 0 s t) ∧
  (∀ i, i < 32 → i ∉ s.fsGroup j → t.o (R.fsOn i) = s.o (R.fsOn i) ∧ t.o (R.fsState i) = s.o (R.fsState i))

/-- The registers of a switch that trips (R234). -/
def faultRegs : List (Key → Prop) := [fam R.fsFault 32, (· = R.fsOnMask), (· = R.fsFaultMask)]

/-- Every channel has lost its state (R68, R229). -/
def AllOff (on : Int) (t : State) : Prop := ∀ i, i < 32 → t.o (R.fsState i) = 0 ∧ t.o (R.fsOn i) = on ∧ t.o (R.fsFault i) = 0 ∧
  t.o (R.fsRestarts i) = 0 ∧ t.o (R.fsOffNs i) = -1 ∧ t.o (R.fsOnNs i) = -1

/-- The registers of the field supply (R229). -/
def fieldRegs : List (Key → Prop) := [fam R.fsRestarts 32, fam R.fsOffNs 32, fam R.fsNoShort 32, fam R.fsNoOpen 32] ++ switchRegs

/-- The registers in which a string's estimate shows (R248, R252). -/
def estimateRegs (t : Nat) : List (Key → Prop) :=
  [(· = R.bsSoc t), (· = R.bsSocUnc t), (· = R.bsThru t), (· = R.bsSinceRestS t), (· = R.bsLearnQ t), (· = R.bsFlags t)]

/-- BS_SOC and BS_SOC_UNC show the charge and its uncertainty (R248). -/
def EstimateShown (t : Nat) (u : State) : Prop :=
  u.o (R.bsSoc t) = norm (R.bsSoc t) (rne (u.o (R.bsQ t) * 10000) (pos (u.bsC t))) ∧
  u.o (R.bsSocUnc t) = norm (R.bsSocUnc t) (cdiv (u.o (R.bsU t) * 10000) (pos (u.bsC t)))

/-- A string gives and takes nothing (R245, R246). -/
def NoCapability (t : Nat) (u : State) : Prop := u.o (R.bsDisCapW t) = 0 ∧ u.o (R.bsChgCapW t) = 0

/-- The port's counters and state after the counters of the bus have moved to `tec` and `rec` (R283). -/
def CanCounted (p : Port) (tec rec : Int) (s t : State) : Prop :=
  t.o (R.canTec p) = norm (R.canTec p) (min tec 255) ∧ t.o (R.canRec p) = norm (R.canRec p) (min rec 255) ∧
  (255 < tec → t.o (R.portState p) = 3 ∧ t.o (R.busoffCount p) = norm (R.busoffCount p) (s.o (R.busoffCount p) + 1) ∧
    t.o (R.canSending p) = 0 ∧ t.o (R.canRecover p) = 0 ∧ ∀ b, b < 3 → t.o (R.txbState (txb p b)) ≠ 3) ∧
  (tec ≤ 255 → t.o (R.portState p) = (if 128 ≤ tec ∨ 128 ≤ rec then 2 else 1) ∧
    t.o (R.busoffCount p) = s.o (R.busoffCount p))

/-- The registers of a CAN port that its error counters reach (R283). -/
def portRegs (p : Nat) : List (Key → Prop) :=
  [(· = R.canTec p), (· = R.canRec p), (· = R.portState p), (· = R.busoffCount p), (· = R.canRecover p), (· = R.canSending p),
   (· = R.txbState (txb p 0)), (· = R.txbState (txb p 1)), (· = R.txbState (txb p 2))]

/-- What loading a frame does beside the registers (R295, R302). -/
def State.mplLoads (s : State) (kind addr blocks : Nat) (data : List Nat) (d : Data) : Data :=
  let f := mplFrame addr kind blocks data
  let on := fun (p : Nat) => s.a R.mplPhases = 1 || decide (p = (s.a R.mplPhaseSel).toNat)
  { d with
    mplOut := (upTo 3).map fun p => if on p then f else []
    sent := d.sent ++ [.mpl (if s.a R.mplPhases = 1 then 7 else 2 ^ (s.a R.mplPhaseSel).toNat) f] }

/-- The unit of a pair that has started listens to its partner (R308, R315). -/
def State.listens (s : State) : Prop := s.o R.pairOn = 1 ∧ 6 ≤ s.o R.startPhase ∧ s.island iPK ≠ 0

/-- A copy of the message passes on some lane (R315). -/
def State.pairHears (s : State) (l : Lanes) : Prop := s.listens ∧ (s.laneGood 0 l.a = true ∨ s.laneGood 1 l.b = true)

/-- The registers in which the lanes of the pair link show (R308, R315, R330). -/
def laneRegs : List (Key → Prop) :=
  [(· = R.laneErrA), (· = R.laneErrB), (· = R.health), (· = R.healthLast 7), (· = R.pairAlarm), (· = R.laneBad 0), (· = R.laneBad 1),
   (· = R.pairLinkState)]

/-- The registers that a change of role reaches: the role, and a test segment that it abandons (R310, R385). -/
def roleRegs : List (Key → Prop) :=
  [(· = R.pairRole), (· = R.segEndFrame), (· = R.segIsland), (· = R.segPartition), fam R.stResult 16, (· = R.stocktakeState)]

/-- The messages of the pair link. -/
def pairMessages (l : Lanes) (m : SampleMsg) (f n q : Nat) (src : Src) (inp : Input) (b : Bool) (g : JoinSeg) (k : Out) (v : Int) : List Instr :=
  [.pairSample m l, .pairMirror f n q src inp l, .pairChecksum f n l, .pairMismatch f n q l, .pairVerdict b l, .pairYield l,
   .pairSwapMsg f l, .pairJoinSegment g l, .pairSecret k n l, .pairForward f n src v l]

/-- A segment that runs names one of the 16 islands' results. -/
def State.segNamed (s : State) : Prop := s.o R.stocktakeState = 3 → (s.o R.segIsland).toNat < 16

/-- The unit has claimed gate ownership for a cause (R321). -/
def Claims (c : Int) (s t : State) : Prop :=
  t.o R.claim = 1 ∧ t.o R.takeCause = c ∧ t.o R.pairRole = roleSwapping ∧
  (s.o R.stocktakeState = 3 → t.o R.stocktakeState = 0 ∧ t.o R.segIsland = 255 ∧ t.o (R.stResult (s.o R.segIsland).toNat) = 3)

/-- The registers of a safety input's faults (R334, R335). -/
def inputRegs : List (Key → Prop) := [fam R.siFault 16, fam R.siFaultNs 16, fam R.siNew 16, fam R.siState 16]

/-- Input i has the latched fault `code` where it had none, and SI_STATE shows it (R334, R335). -/
def FaultOf (i : Nat) (code : Int) (s t : State) : Prop :=
  (s.o (R.siFault i) = 0 → t.o (R.siFault i) = code ∧ t.o (R.siFaultNs i) = s.o R.now ∧ t.o (R.siNew i) = 1) ∧
  (s.o (R.siFault i) ≠ 0 → t.o (R.siFault i) = s.o (R.siFault i) ∧ t.o (R.siFaultNs i) = s.o (R.siFaultNs i))

/-- A trip of an output, or of the site at 255, is latched for a cause, and shows (R333). -/
def Latched (out cause : Nat) (t : State) : Prop :=
  (∃ l ∈ t.d.latches, l.out = out ∧ l.cause = cause ∧ l.lock = 0) ∧
  (out < 24 → bit (t.o (R.outLock out)) 0 = true) ∧ (out = 255 → t.o R.sfState = 2 ∨ t.o R.sfState = 3)

/-- A write of a folio under way goes to the bank that is not in force (R363). -/
def AwayFromForce (x : Folio) (onB : Bool) : Prop := ∀ b isB, x.pick = some (b, isB) → onB = !isB

/-- What a full power-on reset leaves and what it clears (R77). -/
structure FullyReset (cause : Nat) (s t : State) : Prop where
  cleared : ∀ k, kept k = false → isConst k = false → k ≠ R.porCause → ¬ fam R.bsLearnCut 16 k → t.o k = State.reset.o k
  active : ∀ k, keptActive k = false → t.a k = State.reset.a k
  activeKept : ∀ k, keptActive k = true → t.a k = s.a k
  shadow : ∀ k, t.sh k = State.reset.sh k
  queues : ∀ q, q < 64 → t.queue q = ⟨[], false, false, 0, 0⟩
  cause : t.o R.porCause = cause
  count : t.o R.fullResetCount = norm R.fullResetCount (s.o R.fullResetCount + 1)
  energy : ∀ q, q < 26 → t.imported q = s.imported q ∧ t.exported q = s.exported q
  meters : t.o R.mtState = 1
  stores : t.d.ledger = s.d.ledger ∧ t.d.folios = s.d.folios ∧ t.d.imgA = s.d.imgA ∧ t.d.imgB = s.d.imgB
  saved : s.mtRuns = true → ∃ x, t.d.mtTotals = some x ∧ x.vals = mtKeys.map s.o
  waits : t.d.stamps = [] ∧ t.d.handovers = [] ∧ t.d.txns = [] ∧ t.d.assocs = [] ∧ t.d.latches = []

/-- R45's order of two stamps. -/
def Stamped.before (x y : Stamped) : Prop :=
  x.code < y.code ∨ x.code = y.code ∧ (x.inst < y.inst ∨ x.inst = y.inst ∧ (x.tag < y.tag ∨ x.tag = y.tag ∧ x.seq < y.seq))

end Sys2Proof.Machine
end

