-- ==== Sys2Proof/Certificates/Slice0/Obligations.lean ====
section
/-!
DEFINITION. The statements for the provers. A statement of several parts names each part, in `Sys2Proof.Parts`, with the rules
that it follows; parts say what commands do (each as `Does`, which claims a next state), and what they leave alone.
-/

open Sys2Proof Sys2Proof.Machine

/-- A step of the block is its front command's effect on the state without it; with nothing waiting it idles (log 1 is
the model's choice of idling). -/
def Obligations.StepRunsFrontCommand : Prop := ∀ (s : State) (c : Instr) (rest : List Instr),
  step { s with pending := c :: rest } = exec c { s with pending := rest } ∧
  step { s with pending := [] } = .next { s with pending := [] }

/-- The state after reset meets the invariant that every step keeps. -/
def Obligations.ResetMeetsInvariant : Prop := State.reset.Inv

/-- From every state that meets the invariant, reached by a run or not, a step answers a next state that meets it:
stores canonical with every value in its type (R11, R41), 64 queues of at most 1,024 words (R371), nothing raised left
behind (R372). No step faults or refuses. -/
def Obligations.StepKeepsInvariant : Prop := ∀ s : State, s.Inv → ∃ t, step s = .next t ∧ t.Inv

/-- Every command answers a next state; it leaves the waiting commands and every constant of the part as they were
(R5), hands over every item that it raised (R372), and answers alike whatever the command before it sent. -/
def Obligations.EveryCommandAnswers : Prop := ∀ (c : Instr) (s : State),
  Does c s fun t => t.pending = s.pending ∧ t.d.raised = [] ∧ (∀ k, isConst k = true → t.o k = s.o k) ∧
    ∀ l, exec c { s with d := { s.d with sent := l } } = .next t

/-- The sample counter moves in three commands only: by one at a control sample, to 0 at the power frame boundary
after 500 samples, and to 0 at start-up (R19, R73). -/
def Sys2Proof.Parts.SampleCounterMoves : Prop := ∀ (c : Instr) (s : State),
  Does c s fun t => t.next = s.next ∨
    (∃ sd a b, c = .controlSample sd a b ∧ s.next.val < 500 ∧ t.next.val = s.next.val + 1) ∨
    (c = .powerFrameBoundary ∧ s.next.val = 500 ∧ t.next.val = 0) ∨
    (∃ e, c = .startUp e ∧ s.o R.startPhase = 1 ∧ t.next.val = 0)

/-- A started unit counts 500 samples of 2 µs and then a power frame boundary (R19), numbers frames modulo 2^32
outside an alignment gap (R20, R24), and at the cut-off of sample 490 takes every shadow and every pending COMMIT but
that of the MET group (R26). -/
def Sys2Proof.Parts.SamplesAndFrames : Prop := ∀ s : State, 7 ≤ s.o R.startPhase →
  (∀ sd a b, s.next.val < 500 → s.o R.inGap ≠ 1 →
    Does (.controlSample sd a b) s fun t => t.next.val = s.next.val + 1 ∧ t.o R.now = s.o R.now + 2000) ∧
  (s.next.val = 500 → Does .powerFrameBoundary s fun t => t.next.val = 0) ∧
  (∀ u : State, u.o R.inGap ≠ 1 → ((frameNumber.run u).o R.frameNo = (u.o R.frameNo).toNat.succ % 4294967296)) ∧
  (s.next.val = 490 → s.o R.snapTaken ≠ 1 → s.o R.inGap ≠ 1 →
    Does .commitCutoff s (Effect [(R.snapTaken, 1)]
      (fun d => { d with
        snap := ⟨s.shadow, s.d.reqs.filter (· != gMet)⟩
        reqs := s.d.reqs.filter (· = gMet)
        txns := s.d.txns.map fun x =>
          match x.wait with | .landed g => if g = gMet then x else { x with wait := .due g } | _ => x }) [] s))

/-- Samples, frames and the commit cut-off. -/
def Obligations.SamplesAndFramesAreCounted : Prop :=
  Sys2Proof.Parts.SampleCounterMoves ∧ Sys2Proof.Parts.SamplesAndFrames

/-- A stamped value that arrives before its stamp waits for it and moves no register but the sequence number; one that
comes at or after its stamp is not applied, is counted, and leaves its island in FAULT (R17, R18). -/
def Sys2Proof.Parts.StampsAndTheirArrival : Prop := ∀ (s : State) (toPl : Bool) (frame sample : Nat) (inp : Input),
  s.o R.caRun = 1 → sample < 500 → s.d.raised = [] →
  (0 < s.stampAhead frame sample →
    Does (.crossingArrival toPl frame sample inp) s (Effect [(R.seqNo, s.o R.seqNo + 1)]
      (fun d => { d with stamps := d.stamps ++
        [⟨frame, sample, 3, 0, 0, (s.o R.seqNo).toNat, .firmware, inp⟩] }) [] s)) ∧
  (s.stampAhead frame sample ≤ 0 →
    Does (.crossingArrival toPl frame sample inp) s
      (Sets [(R.crossOverrun, s.o R.crossOverrun + 1), (R.islandState (if toPl then 2 else 1), 5)] s))

/-- Stamps that fall in one sample are applied by source code, then instance, then tag, then sequence number; the
order keeps every stamp, and equal stamps keep their order (R45). -/
def Sys2Proof.Parts.StampsFollowTheirOrder : Prop := ∀ l : List Stamped,
  (∀ x ∈ l, x.inst < 16 ∧ x.tag < 256 ∧ x.seq < 4294967296) →
  (sortBy stampRank l).Perm l ∧ (sortBy stampRank l).Pairwise (fun x y => ¬ y.before x) ∧
  ∀ i inst tag seq, (sortBy stampRank l).filter (fun x => decide (x.code = i ∧ x.inst = inst ∧ x.tag = tag ∧ x.seq = seq)) =
    l.filter fun x => decide (x.code = i ∧ x.inst = inst ∧ x.tag = tag ∧ x.seq = seq)

/-- Stamped inputs: arrival, lateness and order. -/
def Obligations.StampsArriveInTheirOrder : Prop :=
  Sys2Proof.Parts.StampsAndTheirArrival ∧ Sys2Proof.Parts.StampsFollowTheirOrder

/-- Each of the five handover steps is met by its own condition, and only the selector's closing writes registers: the
dwell's end, the switching flag and the joins of the output in that frame (R96, R90, R101). -/
def Obligations.HandoverStepConditionsMet : Prop := ∀ (s : State) (e : HoSlot) (h : Handover),
  s.ho e = some h → h.met = false → h.inc < 48 → h.k < 24 →
  (h.step = 1 → 200 ≤ s.o (R.nodeCnt h.inc) → Does (.handoverPreregDone e) s (Effect [] (withHo { h with met := true }) [] s)) ∧
  (h.step = 2 → s.selClosed2 h.inc h.k = true → Does (.handoverSelectorClosed e) s
    (Effect [(R.dwellEnd h.inc, s.o R.now + s.a R.dwellUs * 1000),
             (R.modFlags h.inc, withBit (s.o (R.modFlags h.inc)) 1 true),
             (R.outJoinCount h.k, if s.o (R.outJoinFrame h.k) = h.frame then s.o (R.outJoinCount h.k) + 1 else 1),
             (R.outJoinFrame h.k, h.frame)] (withHo { h with met := true }) [] s)) ∧
  (h.step = 3 → s.rampDone h.k = true → Does (.handoverRampEnd e) s (Effect [] (withHo { h with met := true }) [] s)) ∧
  (h.step = 4 → 50 ≤ s.o (R.drainCnt h.out) ∨ (h.fallback = true ∧ below2A (s.modI h.out) = true) →
    Does (.handoverDrainDone e) s (Effect [] (withHo { h with met := true }) [] s)) ∧
  (h.step = 5 → s.selOpen2 h.out h.k = true → Does (.handoverSelectorOpened e) s
    (Effect [] (withHo { h with met := true }) [] s))

/-- A handover step that times out takes its module out of service with the step's cause, drops its handovers and
opens its gates; a drain that is stuck first falls back on opening the gates; other modules' causes and outputs stay
(R96, R102, R101). -/
def Obligations.HandoverFailuresQuarantine : Prop := ∀ (s : State) (e : HoSlot) (h : Handover),
  s.ho e = some h → h.met = false → h.k < 24 →
  (h.step = 1 → h.inc < 48 → 15000 ≤ s.usSince h.startNs → Does (.preregTimeout e) s (Quarantined h.inc 1 s)) ∧
  (h.step = 2 → h.inc < 48 → 30000 ≤ s.usSince h.startNs → s.d.raised = [] → s.o R.pairRole = 0 → Does (.selCloseTimeout e) s fun t =>
    Quarantined h.inc 2 s t ∧
    t.queues = handOver s [word s (R.outEventQueue h.k) 0x31 h.k (h.planned * 256 +
        (if s.o (R.outJoinFrame h.k) = h.frame then (s.o (R.outJoinCount h.k)).toNat else 0)),
      word s (R.outEventQueue h.k) 0x32 h.inc (2 * 256 + h.k)]) ∧
  (h.step = 4 → h.out < 48 → h.fallback = false → 20000 ≤ s.usSince h.startNs →
    Does (.drainStuck e) s (Effect [(R.modOff h.out, 1)] (fun d => { d with handovers := d.handovers.map fun x =>
      if x.slot = h.slot then { h with fallback := true } else x }) [] s)) ∧
  (h.step = 4 → h.out < 48 → h.fallback = true → 30000 ≤ s.usSince h.startNs → below2A (s.modI h.out) = false →
    Does (.drainStuck e) s (Quarantined h.out 3 s)) ∧
  (h.step = 5 → h.out < 48 → 20000 ≤ s.usSince h.startNs → Does (.selOpenTimeout e) s (Quarantined h.out 4 s))

/-- An alignment step at the frame boundary freezes the gates and gives the gap its length; PTP messages of the chosen
port and domain set their times and the site offset; an FSYNC edge restarts its count; a source that is lost shows as
lost; each moves nothing beside the registers named (R22, R23, R24). -/
def Obligations.SiteTime : Prop := ∀ s : State,
  (∀ arrivals, s.next.val = 500 → s.o R.inGap ≠ 1 → 100000 < s.phaseErr.natAbs → s.o R.timeSource ≠ 0 →
    (∀ k, k < s.nOut → s.os k = osIdle ∨ s.os k = osEnded ∨ s.os k = osFault) → (∀ n, n < s.nCh → s.cs n ≠ csClosed) →
    Does (.frameStep arrivals) s (Within [(R.inGap, 1), (R.gatesLow, 1),
      (R.now, s.o R.now + (s.a R.framePhase - s.site) % 1000000)] [] s)) ∧
  (∀ (port domain : Nat), (port : Int) = s.a R.ptpPort → port ≠ 0 → (domain : Int) = s.a R.ptpDomain → s.island iNW = 2 →
    s.injectsArg 175 2 = false →
    (∀ two o, Does (.ptpMessage port domain (.sync two o)) s fun t =>
      Within [(R.ptpSyncNs, s.o R.now), (R.ptpT2, s.site), (R.srcLost, withBit (s.o R.srcLost) 2 false)]
        [(· = R.ptpT1), (· = R.ptpT3), (· = R.timeSource), (· = R.lockFrames), (· = R.syncState)] s t ∧
      (two = false → t.o R.ptpT1 = o ∧ t.o R.ptpT3 = s.site) ∧
      (two = true → t.o R.ptpT1 = s.o R.ptpT1 ∧ t.o R.ptpT3 = s.o R.ptpT3)) ∧
    (∀ o, Does (.ptpMessage port domain (.followUp o)) s (Sets [(R.ptpT1, o), (R.ptpT3, s.site)] s)) ∧
    (∀ t4, s.timePick = 2 → 0 ≤ s.o R.ptpSyncNs → Does (.ptpMessage port domain (.delayResp t4)) s
      (Sets [(R.siteOff, s.o R.siteOff - ((s.o R.ptpT2 - s.o R.ptpT1) - ((t4 : Int) - s.o R.ptpT3)) / 2)] s))) ∧
  (s.injectsArg 175 3 = false → Does .fsyncEdge s (Within [(R.fsyncSeen, 1), (R.fsyncMiss, 0),
      (R.srcLost, withBit (s.o R.srcLost) 3 false)]
    [(· = R.timeSource), (· = R.lockFrames), (· = R.syncState), (· = R.siteOff)] s)) ∧
  (∀ src, bit (s.o R.srcLost) (srcOf src) = false → s.timeLost src = true →
    Does (.timeSourceLost src) s (Within [(R.srcLost, withBit (s.o R.srcLost) (srcOf src) true)]
      [(· = R.timeSource), (· = R.lockFrames), (· = R.syncState)] s))

/-- At the Shelver's sample the result of R81–R89's computation is stored with its registers, and nothing else moves
(R85, R91, R95). -/
def Sys2Proof.Parts.ShelverComputes : Prop := ∀ s : State,
  s.o R.caRun = 1 → s.o R.shDone ≠ 1 → s.o R.inGap ≠ 1 → 25 ≤ s.sample → s.sample ≤ 124 → s.island iPL ≠ 0 → s.island iPL ≠ 5 →
  Does .shelverFrame s (Effect
    [(R.budgetW, (shelve { s with objs := s.d.snap0, d := { s.d with sent := [], handovers := s.d.snapHo } }).b), (R.shDone, 1), (R.shValid, 1)]
    (fun d => { d with shRes := some (shelve { s with objs := s.d.snap0, d := { d with handovers := s.d.snapHo } }) }) [] s)

/-- A dwell ends with its flag; a quarantine of cause 1 or 2 ends by its hold time until its third count, which stays;
a QUAR_CLEAR ends it where the module's selectors are open and its current is low, and does nothing elsewhere (R90,
R102). -/
def Sys2Proof.Parts.DwellAndQuarantineEnd : Prop := ∀ (s : State) (m : Pm),
  (0 ≤ s.o (R.dwellEnd m) → s.o (R.dwellEnd m) ≤ s.o R.now →
    Does (.dwellExpiry m) s (Sets [(R.dwellEnd m, -1), (R.modFlags m, withBit (s.o (R.modFlags m)) 1 false)] s)) ∧
  (0 ≤ s.o (R.quarNs m) → s.o (R.quarCause m) = 1 ∨ s.o (R.quarCause m) = 2 → s.o (R.quarCount m) < 3 →
    s.a R.quarHoldUs ≤ s.usSince (s.o (R.quarNs m)) →
    Does (.quarantineRelease m) s fun t => t.o (R.modState m) ≠ msQuarantined ∧
      Within [(R.quarNs m, -1), (R.modCapW m, s.modP m)] [(· = R.modState m), (· = R.modFlags m)] s t) ∧
  (∀ u : State, 0 ≤ u.o (R.quarNs m) → u.selectorsOpen m = true → below2A (u.modI m) = true →
    ((applyQuarClear m).run u).o (R.quarNs m) = -1) ∧
  (∀ u : State, u.selectorsOpen m = false ∨ below2A (u.modI m) = false → (applyQuarClear m).run u = u)

/-- The Shelver computes; dwell and quarantine end. -/
def Obligations.PlacementRounds : Prop :=
  Sys2Proof.Parts.ShelverComputes ∧ Sys2Proof.Parts.DwellAndQuarantineEnd

/-- Each of these register commands, where the firmware serves and neither object nor value is refused, is accepted:
the write waits for its stamp, is mirrored by an active unit of a pair, and no register but the sequence number moves
(R35, R43, R45, R313). -/
def Obligations.WritesAreStamped : Prop := ∀ (src : Src) (s : State), s.d.raised = [] →
  (∀ g : Grp, Accepts src (R.gCommit g) 1 s → Does (.commit src g) s (Waits src (R.gCommit g) 1 s)) ∧
  (∀ m : Pm, Accepts src (R.quarClear m) 1 s → Does (.quarClear src m) s (Waits src (R.quarClear m) 1 s)) ∧
  (∀ v : Nat, Accepts src R.storeReq v s → Does (.storeConfig src v) s (Waits src R.storeReq v s)) ∧
  (∀ v : Nat, Accepts src R.restoreDefaults v s → Does (.restoreDefaults src v) s (Waits src R.restoreDefaults v s)) ∧
  (∀ v : Nat, Accepts src R.domainOff v s → Does (.domainOff src v) s (Waits src R.domainOff v s)) ∧
  (∀ v : Nat, Accepts src R.domainOn v s → Does (.domainOn src v) s (Waits src R.domainOn v s)) ∧
  (∀ k : Out, Accepts src (R.outStop k) 1 s → Does (.outStop src k) s (Waits src (R.outStop k) 1 s)) ∧
  (∀ k : Out, Accepts src (R.faultClear k) 1 s → Does (.faultClear src k) s (Waits src (R.faultClear k) 1 s)) ∧
  (∀ m : Pm, Accepts src (R.latchClear m) 1 s → Does (.latchClear src m) s (Waits src (R.latchClear m) 1 s)) ∧
  (∀ (j : Fs) (on : Bool), Accepts src (R.fsCmd j) (ofBool on) s → Does (.fsCmd src j on) s (Waits src (R.fsCmd j) (ofBool on) s)) ∧
  (∀ j : Fs, Accepts src (R.fsClear j) 1 s → Does (.fsClear src j) s (Waits src (R.fsClear j) 1 s)) ∧
  (∀ (p : Port) (b : Buf), Accepts src (R.txbRequest (txb p b)) 1 s → Does (.txbRequest src p b) s (Waits src (R.txbRequest (txb p b)) 1 s)) ∧
  (∀ (p : Port) (b : Buf), Accepts src (R.txbAbort (txb p b)) 1 s → Does (.txbAbort src p b) s (Waits src (R.txbAbort (txb p b)) 1 s)) ∧
  (∀ p : Port, Accepts src (R.busoffRecover p) 1 s → Does (.busoffRecover src p) s (Waits src (R.busoffRecover p) 1 s)) ∧
  (∀ p : Port, Accepts src (R.sleepReq p) 1 s → Does (.sleepReq src p) s (Waits src (R.sleepReq p) 1 s)) ∧
  (∀ p : Port, Accepts src (R.wakeReq p) 1 s → Does (.wakeReq src p) s (Waits src (R.wakeReq p) 1 s)) ∧
  (∀ r : Fe, Accepts src (R.feWriteReset r) 1 s → Does (.feWriteReset src r) s (Waits src (R.feWriteReset r) 1 s)) ∧
  (Accepts src R.bcastReq 1 s → Does (.bcastReq src) s (Waits src R.bcastReq 1 s)) ∧
  (Accepts src R.rejoin 1 s → Does (.rejoin src) s (Waits src R.rejoin 1 s)) ∧
  (∀ (q : Fin 64) (n : Nat), Accepts src (R.qConsume q) n s → Does (.qConsume src q n) s (Waits src (R.qConsume q) n s)) ∧
  (∀ (q : Fin 64) (v : Nat), Accepts src (R.qReset q) v s → Does (.qReset src q v) s (Waits src (R.qReset q) v s)) ∧
  (∀ q : Fin 64, Accepts src (R.qFlagClear q) 1 s → Does (.qFlagClear src q) s (Waits src (R.qFlagClear q) 1 s))

/-- The same for the vault, update, stocktake and injection commands, whose values are octet strings or codes (R348,
R354, R355, R382, R387, R389). An IMPORT waits where its data opens, and is refused with RESULT 3 where it does not: what
opens is a free value of the model (assumption log 2). -/
def Obligations.ServiceWritesAreStamped : Prop := ∀ (src : Src) (s : State), s.d.raised = [] →
  (Accepts src R.vaultCmd 1 s → Does (.generate src) s (Waits src R.vaultCmd 1 s)) ∧
  (Accepts src R.vaultCmd 1 s → Does (.importKey src) s fun t =>
    if (s.importNow 0 s.importData).isSome then Waits src R.vaultCmd 2 s t else RefusesCommand src s t) ∧
  (Accepts src R.vaultCmd 3 s → Does (.verifyStage src) s (Waits src R.vaultCmd 3 s)) ∧
  (Accepts src R.vaultCmd 4 s → Does (.stageCert src) s (Waits src R.vaultCmd 4 s)) ∧
  (Accepts src R.vaultCmd 5 s → Does (.swapKey src) s (Waits src R.vaultCmd 5 s)) ∧
  (Accepts src R.vaultCmd 6 s → Does (.discardStage src) s (Waits src R.vaultCmd 6 s)) ∧
  (Accepts src R.vaultCmd 7 s → Does (.deleteSlot src) s (Waits src R.vaultCmd 7 s)) ∧
  (Accepts src R.vaultCmd 8 s → Does (.extendMeas7 src) s (Waits src R.vaultCmd 8 s)) ∧
  (Accepts src R.vaultCmd 9 s → Does (.generateBlob src) s (Waits src R.vaultCmd 9 s)) ∧
  (Accepts src R.vaultCmd 6 s → s.lc ≠ 3 → s.o R.vaultSlot = 2 → Does (.importBlob src) s fun t =>
    if (s.importNow 1 s.importData).isSome then Waits src R.vaultCmd 10 s t else RefusesCommand src s t) ∧
  (Accepts src R.updCmd 1 s → Does (.beginUpd src) s (Waits src R.updCmd 1 s)) ∧
  (Accepts src R.updCmd 2 s → Does (.verifyUpd src) s (Waits src R.updCmd 2 s)) ∧
  (Accepts src R.updCmd 3 s → Does (.forwardWrap src) s (Waits src R.updCmd 3 s)) ∧
  (Accepts src R.updCmd 4 s → Does (.activate src) s (Waits src R.updCmd 4 s)) ∧
  (Accepts src R.updCmd 5 s → Does (.confirm src) s (Waits src R.updCmd 5 s)) ∧
  (Accepts src R.updCmd 6 s → Does (.cancel src) s (Waits src R.updCmd 6 s)) ∧
  (∀ m : Nat, Accepts src R.stReq m s → Does (.stReq src m) s (Waits src R.stReq m s)) ∧
  (∀ d : Fin 179, Accepts src (R.injStart d) 1 s → Does (.injStart src d) s (Waits src (R.injStart d) 1 s)) ∧
  (∀ d : Fin 179, Accepts src (R.injStop d) 1 s → Does (.injStop src d) s (Waits src (R.injStop d) 1 s)) ∧
  (∀ v : Nat, Accepts src R.injPermitS v s → Does (.injPermitS src v) s (Waits src R.injPermitS v s)) ∧
  (∀ x : List Byte, x.length = (tyOf R.ownerAnchor).bytes → Accepts src R.ownerAnchor (ofBytes (tyOf R.ownerAnchor) x) s →
    Does (.ownerAnchor src x) s (Waits src R.ownerAnchor (ofBytes (tyOf R.ownerAnchor) x) s)) ∧
  (∀ x : List Byte, x.length = (tyOf R.updData).bytes → Accepts src R.updData (ofBytes (tyOf R.updData) x) s →
    Does (.updData src x) s (Waits src R.updData (ofBytes (tyOf R.updData) x) s)) ∧
  (∀ x : List Byte, x.length = (tyOf R.injToken).bytes → Accepts src R.injToken (ofBytes (tyOf R.injToken) x) s →
    Does (.injToken src x) s (Waits src R.injToken (ofBytes (tyOf R.injToken) x) s))

/-- The commands that act on one unit alone wait for their stamp and are never mirrored (R314); a SWAP_REQ is accepted
where the unit is not the standby, and forwarded to the partner by a standby (R326). -/
def Obligations.UnitLocalWritesAreNotMirrored : Prop := ∀ (src : Src) (s : State), s.d.raised = [] →
  (∀ v : Nat, Accepts src R.driftClear v s → Does (.driftClear src v) s (WaitsHere src R.driftClear v s)) ∧
  (∀ v : Nat, Accepts src R.snapshotReq v s → Does (.snapshotReq src v) s (WaitsHere src R.snapshotReq v s)) ∧
  (∀ v : Nat, Accepts src R.ledgerAck v s → Does (.ledgerAck src v) s (WaitsHere src R.ledgerAck v s)) ∧
  (∀ v : Nat, Accepts src R.ledgerRead v s → Does (.ledgerRead src v) s (WaitsHere src R.ledgerRead v s)) ∧
  (Accepts src R.resetReq 0x4150 s → Does (.resetReqAp src) s (WaitsHere src R.resetReq 0x4150 s)) ∧
  (Accepts src R.resetReq 0x4341 s → Does (.resetReqCa src) s (WaitsHere src R.resetReq 0x4341 s)) ∧
  (Accepts src R.resetReq 0x504F s → Does (.resetReqFull src) s (WaitsHere src R.resetReq 0x504F s)) ∧
  (Accepts src R.alarmClear 1 s → Does (.alarmClear src) s (WaitsHere src R.alarmClear 1 s)) ∧
  (∀ v : Nat, Accepts src R.lcTarget v s → Does (.lcTarget src v) s (WaitsHere src R.lcTarget v s)) ∧
  (∀ x : List Byte, x.length = (tyOf R.meas7Extend).bytes → Accepts src R.meas7Extend (ofBytes (tyOf R.meas7Extend) x) s →
    Does (.meas7Extend src x) s (WaitsHere src R.meas7Extend (ofBytes (tyOf R.meas7Extend) x) s)) ∧
  (∀ x : List Byte, x.length = (tyOf R.lcToken).bytes → Accepts src R.lcToken (ofBytes (tyOf R.lcToken) x) s →
    Does (.lcToken src x) s (WaitsHere src R.lcToken (ofBytes (tyOf R.lcToken) x) s)) ∧
  (Accepts src R.swapReq 1 s →
    (s.role ≠ roleStandby → Does (.swapReq src) s (Waits src R.swapReq 1 s)) ∧
    (s.role = roleStandby → Does (.swapReq src) s (Effect [] (fun d => { d with
      sent := [.pair 10 [0x4600, 4, srcCode src, 1]] }) [] s)))

/-- At its stamp each request does what its object says, once, and changes nothing else: a COMMIT is pending with its
source, domain masks gather, a reset request waits, a CAN port sleeps, recovers, the partner joins (R25, R57, R69,
R76, R283, R287, R300, R326, R328). -/
def Sys2Proof.Parts.RequestWritesTakeEffect : Prop := ∀ (src : Src) (u : State),
  (∀ g : Grp, Change [(R.reqSrc g, srcCode src)] (fun d => { d with reqs := d.reqs ++ [g.val] }) u (applied src (R.gCommit g) 1 u)) ∧
  (Change [(R.storeReqd, 1)] id u (applied src R.storeReq 0x5354 u)) ∧
  (∀ v : Nat, Change [(R.domOff, ((u.o R.domOff).toNat ||| v : Nat))] id u (applied src R.domainOff v u)) ∧
  (∀ v : Nat, Change [(R.domOn, ((u.o R.domOn).toNat ||| v : Nat))] id u (applied src R.domainOn v u)) ∧
  (∀ v : Int, Change [(R.resetDue, v)] id u (applied src R.resetReq v u)) ∧
  (∀ v : Int, Change [(R.driftReq, 1)] id u (applied src R.driftClear v u)) ∧
  (∀ m : Nat, Change [] (fun d => { d with ledgerReq := d.ledgerReq ++ [(8, m, u.frame)] }) u (applied src R.snapshotReq m u)) ∧
  (∀ n : Nat, Change [(R.ledgerRead, n), (R.ledgerEntry, match u.d.ledger.find? fun x => (x.1 : Int) = n with | some x => x.2 | none => 0)] id u
    (applied src R.ledgerRead n u)) ∧
  (∀ p : Port, Change [(R.canSleep p, 1)] id u (applied src (R.sleepReq p) 1 u)) ∧
  (∀ p : Port, Change (if u.o (R.portState p) = 3 then [(R.canRecover p, 1)] else []) id u (applied src (R.busoffRecover p) 1 u)) ∧
  (∀ r : Fe, Change [(R.feReset r, 1)] id u (applied src (R.feWriteReset r) 1 u)) ∧
  (Change [(R.mplBcast, 1)] id u (applied src R.bcastReq 1 u)) ∧
  (Change [(R.swapWant, 1), (R.swapNs, u.o R.now)] id u (applied src R.swapReq 1 u)) ∧
  (u.role = roleSuspect → Change [(R.joining, 1), (R.joinCnt, 0), (R.sumBad, 0),
    (R.health, ((u.o R.health).toNat &&& 0xFFFFFFCD : Nat))] id u (applied src R.rejoin 1 u)) ∧
  (u.role ≠ roleSuspect → applied src R.rejoin 1 u = u)

/-- At its stamp Q_CONSUME removes the oldest words, Q_RESET empties the queue and every flag, Q_FLAG_CLEAR clears
OVERRUN and UNCORR (R373, R375). -/
def Sys2Proof.Parts.QueueWritesTakeEffect : Prop := ∀ (src : Src) (q : Fin 64) (u : State), u.queues.length = 64 →
  (∀ n : Nat, (applied src (R.qConsume q) n u).queues = setAt u.queues q ((u.queue q).consume n) ∧
    (∀ k, k ≠ R.qWritten q → (applied src (R.qConsume q) n u).o k = u.o k) ∧ (applied src (R.qConsume q) n u).d = u.d) ∧
  (∀ v, applied src (R.qReset q) v u = { u with queues := setAt u.queues q ⟨[], false, false, 0, 0⟩ }) ∧
  (applied src (R.qFlagClear q) 1 u =
    { u with queues := setAt u.queues q { u.queue q with overrun := false, uncorr := false } })

/-- What accepted requests do at their stamp, and nothing else. -/
def Obligations.AcceptedWritesTakeEffect : Prop :=
  Sys2Proof.Parts.RequestWritesTakeEffect ∧ Sys2Proof.Parts.QueueWritesTakeEffect

/-- An instance holds at most four open transactions; a request beyond them is aborted with BUSY, one whose tag is
open with TAG_IN_USE, and the open transaction continues (R50). -/
def Obligations.LotLimits : Prop := ∀ (s : State) (t : Inst) (h : LotHdr) (data : List Byte), s.carries t = true →
  (∀ x, s.txn t h.tag = some x →
    (h.service = 1 → Does (.lotReadReq t h) s (Answers t [abortOf h 3 h.tag] s.d.txns s)) ∧
    (h.service = 3 → Does (.lotWriteReq t h data) s (Answers t [abortOf h 3 h.tag] s.d.txns s))) ∧
  (s.txn t h.tag = none → 4 ≤ (s.openOn t).length →
    (h.service = 1 → Does (.lotReadReq t h) s (Answers t [abortOf h 4 0] s.d.txns s)) ∧
    (h.service = 3 → Does (.lotWriteReq t h data) s (Answers t [abortOf h 4 0] s.d.txns s))) ∧
  ((s.openOn t).length ≤ 4 →
    (h.service = 1 → Does (.lotReadReq t h) s fun u => (u.openOn t).length ≤ 4) ∧
    (h.service = 3 → Does (.lotWriteReq t h data) s fun u => (u.openOn t).length ≤ 4))

/-- A read is answered whole where it fits, in segments where it does not, or aborted with the refusal of its object;
each acknowledgement brings the next segment, and a wrong one ends the transaction (R47, R49, R51). -/
def Sys2Proof.Parts.LotReads : Prop := ∀ (s : State) (t : Inst) (h : LotHdr), s.carries t = true → 
  (h.service = 1 → s.txn t h.tag = none → (s.openOn t).length < 4 → h.index < 0x5000 →
    let k := h.index * 256 + h.sub
    let value := (s.readBytes k h.shadow false).1
    (∀ w, s.readRefusal k = some w → Does (.lotReadReq t h) s (Answers t [abortOf h w.1 w.2.1] s.d.txns s)) ∧
    (s.readRefusal k = none → value.length ≤ lotCap t → Does (.lotReadReq t h) s
      (Answers t [(⟨2, true, false, false, h.tag, h.index, h.sub, 0, value.length⟩, value)] s.d.txns s)) ∧
    (s.readRefusal k = none → lotCap t < value.length → Does (.lotReadReq t h) s
      (Answers t [(⟨2, false, true, false, h.tag, h.index, h.sub, 0, value.length⟩, value.take (lotCap t))]
        (s.d.txns ++ [⟨t, h.tag, false, h.index, h.sub, value, 0, lotCap t, 0, s.o R.now, s.o R.now, .segment⟩]) s))) ∧
  (h.service = 6 →
    (s.txn t h.tag = none → Does (.lotSegAck t h) s (Answers t [abortOf h 5 0xFFFF] s.d.txns s)) ∧
    (∀ x, s.txn t h.tag = some x →
      (x.isWrite = true ∨ x.wait ≠ .segment ∨ h.seg ≠ x.seg → Does (.lotSegAck t h) s
        (Answers t [abortOf (x.hdr 7 ((x.seg + 255) % 256) 4 false) 5 x.seg] (s.without t h.tag) s)) ∧
      (x.isWrite = false → x.wait = .segment → h.seg = x.seg →
        let part := (x.data.drop x.done).take (lotCap t)
        (x.data.length ≤ x.done + part.length → Does (.lotSegAck t h) s
          (Answers t [(x.hdr 5 ((x.seg + 1) % 256) part.length true, part)] (s.without t h.tag) s)) ∧
        (x.done + part.length < x.data.length → Does (.lotSegAck t h) s
          (Answers t [(x.hdr 5 ((x.seg + 1) % 256) part.length false, part)]
            (s.with { x with done := x.done + part.length, seg := (x.seg + 1) % 256, touched := s.o R.now }) s))))) ∧
  ([1, 3, 5, 6, 7].contains h.service = false → Does (.lotUnknownService t h) s (Answers t [abortOf h 2 h.service] s.d.txns s))

/-- A write of a whole value waits for its stamp under its tag; a longer one opens a transaction that asks for its
segments (R47, R49, R29). -/
def Sys2Proof.Parts.LotWrites : Prop := ∀ (s : State) (t : Inst) (h : LotHdr) (data : List Byte), s.carries t = true → s.d.raised = [] →
  h.index < 0x5000 →
  let k := h.index * 256 + h.sub
  let src := srcOfInst t
  let n := (tyOf k).bytes
  s.keyRefusal src k = none → k ≠ R.swapReq → h.length = n →
  (h.service = 3 → s.txn t h.tag = none → (s.openOn t).length < 4 →
    let x : Txn := ⟨t, h.tag, true, h.index, h.sub, data.take (min n (lotCap t)), n, 0, 1, s.o R.now, s.o R.now, .segment⟩
    (n ≤ lotCap t → n ≤ data.length → s.valueRefusal k (ofBytes (tyOf k) (data.take n)) = none →
      Does (.lotWriteReq t h data) s (LandsLater x (s.d.txns ++ [{ x with wait := .stamp }]) k (ofBytes (tyOf k) (data.take n)) s)) ∧
    (lotCap t < n → lotCap t ≤ data.length → h.segmented = true →
      Does (.lotWriteReq t h data) s (Answers t [(x.hdr 4 0 (lotCap t) false, [])] (s.d.txns ++ [x]) s)))

/-- Lomush Object Transfer reads and writes. -/
def Obligations.LotTransfers : Prop :=
  Sys2Proof.Parts.LotReads ∧ Sys2Proof.Parts.LotWrites

/-- Each segment of a write is checked for its number and length and acknowledged; the last one lands the whole value,
and an error aborts the transaction and leaves no part of the value (R29, R47, R49). -/
def Sys2Proof.Parts.LotSegments : Prop := ∀ (s : State) (t : Inst) (h : LotHdr) (data : List Byte), s.carries t = true → s.d.raised = [] →
  h.service = 5 →
  (s.txn t h.tag = none → Does (.lotSegData t h data) s (Answers t [abortOf h 5 0xFFFF] s.d.txns s)) ∧
  (∀ x, s.txn t h.tag = some x →
    (x.isWrite = false ∨ x.wait ≠ .segment ∨ h.seg ≠ x.seg → Does (.lotSegData t h data) s
      (Answers t [abortOf (x.hdr 7 ((x.seg + 255) % 256) 4 false) 5 x.seg] (s.without t h.tag) s)) ∧
    (x.isWrite = true → x.wait = .segment → h.seg = x.seg →
      let n := min (lotCap t) (x.want - x.data.length)
      let y := { x with data := x.data ++ data.take n, seg := (x.seg + 1) % 256, touched := s.o R.now }
      (h.length ≠ n ∨ data.length < n → Does (.lotSegData t h data) s
        (Answers t [abortOf (x.hdr 7 ((x.seg + 255) % 256) 4 false) 0x21 x.want] (s.without t h.tag) s)) ∧
      (h.length = n → n ≤ data.length → y.data.length < y.want → Does (.lotSegData t h data) s
        (Answers t [(y.hdr 4 h.seg y.data.length false, [])] (s.with y) s)) ∧
      (h.length = n → n ≤ data.length → y.want ≤ y.data.length → x.index < 0x5000 →
        let k := x.index * 256 + x.sub
        s.keyRefusal (srcOfInst t) k = none → s.valueRefusal k (ofBytes (tyOf k) y.data) = none → k ≠ R.swapReq →
        Does (.lotSegData t h data) s (LandsLater y (s.with { y with wait := .stamp }) k (ofBytes (tyOf k) y.data) s))))

/-- A transaction ends by its segment time, its lifetime, the partition's verdict or time, or the requester's abort,
with the code of each; an abort of a write that waits for its stamp withdraws the write (R49, R51, R60). -/
def Sys2Proof.Parts.LotEnds : Prop := ∀ (s : State) (t : Inst) (tag : Nat) (x : Txn), s.serves = true → s.txn t tag = some x →
  let gone (code detail : Nat) := Answers t [abortOf (x.hdr 7 ((x.seg + 255) % 256) 4 false) code detail] (s.without t tag) s
  (x.wait = .segment → 100000 ≤ s.usSince x.touched → Does (.lotSegmentTimeout t tag) s (gone 1 0)) ∧
  (5000000 ≤ s.usSince x.opened → Does (.lotLifetimeTimeout t tag) s (gone 1 2)) ∧
  (x.wait = .verdict →
    (100000 ≤ s.usSince x.touched → Does (.partitionTimeout t tag) s (gone 1 1)) ∧
    (∀ code detail, Does (.partitionVerdict t tag (.abort code detail)) s (gone code detail)) ∧
    (x.isWrite = true → Does (.partitionVerdict t tag .writeOk) s
      (Answers t [(x.hdr 4 ((x.seg + 255) % 256) x.data.length true, [])] (s.without t tag) s)) ∧
    (∀ value, x.isWrite = false → value.length ≤ lotCap t → Does (.partitionVerdict t tag (.readOk value)) s
      (Answers t [(⟨2, true, false, false, x.tag, x.index, x.sub, 0, value.length⟩, value)] (s.without t tag) s))) ∧
  (∀ h : LotHdr, s.carries t = true → h.service = 7 → h.tag = tag →
    (x.isWrite = false ∨ x.wait ≠ .stamp → Does (.lotAbort t h) s (Effect [] (fun d => { d with txns := s.without t tag }) [] s)) ∧
    (x.isWrite = true → x.wait = .stamp → Does (.lotAbort t h) s (Effect [] (fun d => { d with
      txns := s.without t tag
      stamps := s.d.stamps.filter fun y => !(y.src = srcOfInst t && y.tag = tag && (match y.inp with | .write _ _ _ => true | _ => false)) })
      [] s)))

/-- Segments of a write, and how transactions end. -/
def Obligations.LotSegmentsAndEnds : Prop :=
  Sys2Proof.Parts.LotSegments ∧ Sys2Proof.Parts.LotEnds

/-- A DTLS handshake on an open port takes the lowest free association where protocol, suite, group and certificate
are good and a chain reaches an anchor; otherwise it is answered with the alert of its fault (R54, R55). -/
def Sys2Proof.Parts.AssociationsOpen : Prop := ∀ (s : State) (o : DtlsOffer), s.serves = true → s.island iNW = 2 ∨ s.island iNW = 3 →
  s.a R.udpEthMask ≠ 0 →
  let good := o.dtls13 && o.suiteOk && o.groupOk && o.certEcdsa
  let reads := o.chainsRead && s.anchorIn (s.a R.readAnchorSlot)
  let writes := o.chainsWrite && s.anchorIn (s.a R.writeAnchorSlot)
  ((∀ n : Fin 4, ∃ x ∈ s.d.assocs, x.num = n) → Does (.dtlsHandshake o) s (Effect [] (fun d => { d with sent := [.alert 4 40] }) [] s)) ∧
  (∀ n : Fin 4, (∀ x ∈ s.d.assocs, x.num ≠ n) → (∀ m, m < n → ∃ x ∈ s.d.assocs, x.num = m) →
    (good = false → Does (.dtlsHandshake o) s (Effect [] (fun d => { d with sent := [.alert n 40] }) [] s)) ∧
    (good = true → (reads || writes) = true →
      Does (.dtlsHandshake o) s (Effect [] (fun d => { d with assocs := d.assocs ++ [⟨n, writes⟩] }) [] s)) ∧
    (good = true → (reads || writes) = false → Does (.dtlsHandshake o) s (Effect [] (fun d => { d with sent := [.alert n 42] }) [] s)))

/-- A write of one object by index and subindex is stamped as the named commands are; a value of the wrong length is
refused with its length (R43, R49). -/
def Sys2Proof.Parts.ObjectWriteReachesItsObject : Prop := ∀ (s : State) (src : Src) (index sub : Nat) (data : List Byte), s.d.raised = [] →
  index < 0x5000 →
  let k := index * 256 + sub
  (data.length = (tyOf k).bytes → Accepts src k (ofBytes (tyOf k) data) s → k ≠ R.swapReq →
    (unitLocal k = false → Does (.objectWrite src index sub data) s (Waits src k (ofBytes (tyOf k) data) s)) ∧
    (unitLocal k = true → Does (.objectWrite src index sub data) s (WaitsHere src k (ofBytes (tyOf k) data) s))) ∧
  (s.serves = true → s.keyRefusal src k = none → data.length ≠ (tyOf k).bytes → Does (.objectWrite src index sub data) s
    (Effect [] (fun d => { d with sent := [.refusedWrite src 0x21 (tyOf k).bytes] }) [] s))

/-- DTLS associations, and writes of one object. -/
def Obligations.AssociationsAndObjectWrites : Prop :=
  Sys2Proof.Parts.AssociationsOpen ∧ Sys2Proof.Parts.ObjectWriteReachesItsObject

/-- A session that waits too long for its contactors, its ramp or a weld phase enters FAULT with the cause of each;
one that waits too long in isolation test, precharge or pause ends by a ramp down at the frame boundary (R104, R105,
R106, R108, R110, R111, R112). -/
def Sys2Proof.Parts.SessionTimeouts : Prop := ∀ (s : State) (k : Out),
  (s.os k = osIso → s.mainsClosed k = false → 30000 ≤ s.usSince (s.o (R.outCmdNs k)) →
    Does (.contactorCloseTimeout k) s (Entered k 8 5 s)) ∧
  (s.os k = osRamp → 0 ≤ s.o (R.outZeroNs k) → s.o (R.outLowNs k) < 0 → 1000000 ≤ s.usSince (s.o (R.outZeroNs k)) →
    6 < s.o (R.outEndCause k) → Does (.rampStuck k) s (Entered k 8 6 s)) ∧
  (s.os k = osWeld → s.o (R.outPhaseDone k) ≠ 1 → 500000 ≤ s.usSince (s.o (R.outPhaseNs k)) →
    Does (.weldPhaseTimeout k) s (Entered k 8 3 s)) ∧
  (s.o (R.outPend k) = 0 →
    (s.os k = osIso → 40000000 ≤ s.usSince (s.o (R.outNs k)) →
      Does (.isoTimeout k) s (Sets [(R.outPend k, osRamp + 1), (R.outPendCause k, 13)] s)) ∧
    (s.os k = osPre → 7000000 ≤ s.usSince (s.o (R.outNs k)) →
      Does (.prechargeTimeout k) s (Sets [(R.outPend k, osRamp + 1), (R.outPendCause k, 12)] s)) ∧
    (s.os k = osEnergy → s.a (R.pauseLimitUs k) ≠ 0 → 0 ≤ s.o (R.outPauseNs k) →
      s.a (R.pauseLimitUs k) ≤ s.usSince (s.o (R.outPauseNs k)) →
      Does (.pauseTimeout k) s (Sets [(R.outPend k, osRamp + 1), (R.outPendCause k, 14)] s)))

/-- Isolation dwell, precharge, ramp down and each weld phase end as their conditions say, each with its result or its
transition (R108, R109, R111, R112). -/
def Sys2Proof.Parts.SessionSteps : Prop := ∀ (s : State) (k : Out),
  (s.os k = osIso → 0 ≤ s.o (R.outHoldNs k) → s.a (R.isoDwellUs k) ≤ s.usSince (s.o (R.outHoldNs k)) →
    Does (.isoDwellExpiry k) s (Sets [(R.isoResult k,
      if s.o (R.outIsoMin k) * 1000000 < s.a (R.isoWarn k) * s.o (R.outIsoV k) then 2 else 1)] s)) ∧
  (s.os k = osPre → 0 ≤ s.o (R.outHoldNs k) → 100000 ≤ s.usSince (s.o (R.outHoldNs k)) →
    Does (.prechargeReady k) s (Sets [(R.outReady k, 1)] s)) ∧
  (s.os k = osRamp → s.quiet10 k = true →
    s.o (R.outVehOpen k) = 1 ∨ s.o (R.outLinkLost k) = 1 ∨ 2000000 ≤ s.usSince (s.o (R.outLowNs k)) →
    (s.o (R.outEndCause k) = 7 → Does (.rampDownEnd k) s (Entered k 8 7 s)) ∧
    (s.o (R.outEndCause k) ≠ 7 → s.o (R.outEndCause k) ≠ 9 → s.o (R.outPend k) = 0 →
      Does (.rampDownEnd k) s (Sets [(R.outPend k, osWeld + 1), (R.outPendCause k, s.o (R.outEndCause k))] s))) ∧
  (s.os k = osWeld → s.o (R.outPhaseDone k) ≠ 1 → s.weldOk k = true →
    Does (.weldPhasePass k) s (Sets [(R.outPhaseDone k, 1)] s))

/-- Session steps and time-outs. -/
def Obligations.SessionsStepAndTimeOut : Prop :=
  Sys2Proof.Parts.SessionTimeouts ∧ Sys2Proof.Parts.SessionSteps

/-- In FAULT the contactors open once the output is quiet for ten samples, and the mains contactors are forced open at
CONTACT_FORCE at the latest; no coil is closed (R105, R114, R338). -/
def Obligations.FaultOpensContactors : Prop := ∀ (s : State) (k : Out), s.os k = osFault →
  0 ≤ s.o (R.expCmd (outExp k)) → s.o (R.expCmd (outExp k)) ≤ 65535 →
  (s.quiet10 k = true → Does (.faultContactorOpen k) s fun t =>
    t.coilOn (outExp k) (outCoil k 0) = false ∧ t.coilOn (outExp k) (outCoil k 1) = false ∧ t.coilOn (outExp k) (outCoil k 2) = false ∧
    Within [(R.outWant k, 0)] ((· = R.outCmdNs k) :: coilRegs (outExp k)) s t) ∧
  (s.coilOn (outExp k) (outCoil k 0) = true ∨ s.coilOn (outExp k) (outCoil k 1) = true →
    s.quiet10 k = true ∨ s.a R.contactForceUs ≤ s.usSince (s.o (R.outNs k)) →
    Does (.forcedContactorOpen k) s fun t =>
      t.coilOn (outExp k) (outCoil k 0) = false ∧ t.coilOn (outExp k) (outCoil k 1) = false ∧
      t.coilOn (outExp k) (outCoil k 2) = s.coilOn (outExp k) (outCoil k 2) ∧
      Within [(R.outWant k, ((s.o (R.outWant k)).toNat &&& 4 : Nat))] (coilRegs (outExp k)) s t)

/-- A vehicle's request is taken in the states that allow it, counted, timed and stamped; in any other state it is
answered with a sequence error and the link's fault 4 is stamped (R267, R268, R270). -/
def Obligations.VehicleRequests : Prop := ∀ (s : State) (k : Out), s.talks k = true → s.drives = true → s.d.raised = [] →
  (∀ kind sid evcc protocol mode lim sched, Asks (.sessionSetup k kind sid evcc protocol mode lim sched) k
    (s.os k = osConnected ∨ (kind = .scheduleExchange ∧ s.os k = osEnergy ∧ s.o (R.vlRenegSent k) = 1))
    (.setup kind sid evcc protocol mode lim sched) s) ∧
  Asks (.dcCableCheck k) k (s.os k = osIso ∨ (s.os k = osConnected ∧ s.o (R.evVKnown k) = 1)) .cableCheck s ∧
  (∀ v, Asks (.dcPreCharge k v) k (s.os k = osPre ∨ (s.os k = osIso ∧ (s.o (R.isoResult k) = 1 ∨ s.o (R.isoResult k) = 2)))
    (.preCharge v) s) ∧
  Asks (.powerDeliveryStart k) k (s.os k = osPre ∧ s.o (R.outReady k) = 1) .powerStart s ∧
  (∀ lim, Asks (.dcChargeLoop k lim) k (s.os k = osEnergy) (.chargeLoop lim) s) ∧
  Asks (.powerDeliveryStop k) k (s.os k = osEnergy) .powerStop s ∧
  Asks (.dcWeldingDetection k) k (s.os k = osRamp) .welding s ∧
  Asks (.sessionStop k) k (s.os k ≠ osIdle ∧ s.os k ≠ osConnected) .sessionStop s

/-- Pilot states are stamped at once or as presence and unplugging after their filters; discovery is answered; a
second TCP connection is refused; TLS comes up only with version, cipher, curve and key right, and a failed handshake
closes the link (R260, R261, R262, R266, R269, R273). -/
def Sys2Proof.Parts.VehicleLink : Prop := ∀ (s : State) (k : Out), s.linked k = true → s.d.raised = [] →
  (∀ high low held, isPresent (s.pilotOf k high low) = true → Does (.vehiclePresent k high low held) s
    (Effect [(R.pilotHighMv k, high), (R.pilotLowMv k, low), (R.seqNo, s.o R.seqNo + 1)]
      (s.takes .firmware 0 (if s.a (R.idFilterUs k) ≤ held then .present k (s.pilotOf k high low) else .pilot k (s.pilotOf k high low))) [] s)) ∧
  (∀ high low held, isPresent (s.pilotOf k high low) = false → Does (.unplug k high low held) s
    (Effect [(R.pilotHighMv k, high), (R.pilotLowMv k, low), (R.seqNo, s.o R.seqNo + 1)]
      (s.takes .firmware 0 (if s.a (R.unplugFilterUs k) ≤ held then .unplug k (s.pilotOf k high low) else .pilot k (s.pilotOf k high low))) [] s)) ∧
  (∀ want, s.outlet k = 1 ∨ s.outlet k = 3 → Does (.seccDiscovery k want) s
    (Effect (if s.o (R.vlState k) = 2 then [(R.vlState k, 3)] else [])
      (fun d => { d with sent := [.vehicle k vkSdp [s.a R.seccTcpPort, 1, ofBool want]] }) [] s)) ∧
  (s.o (R.tcpOpen k) = 1 → Does (.tcpConnect k) s (Effect [] (fun d => { d with sent := [.vehicle k vkTcpReset []] }) [] s)) ∧
  (s.o (R.tcpOpen k) ≠ 1 → Does (.tcpConnect k) s
    (Effect [(R.tcpOpen k, 1)] (fun d => { d with sent := [.vehicle k vkTcpAccept []] }) [] s)) ∧
  (s.o (R.tcpOpen k) = 1 → s.o (R.tlsUp k) ≠ 1 → s.outlet k = 1 ∨ s.outlet k = 3 → ∀ o : TlsOffer,
    ((o.tls13 && o.aes256gcm && o.secp521r1 && s.tlsKey (s.a (R.tlsSlot k))) = true → Does (.tlsHandshake k o) s fun t => ∃ x : Nat,
      Effect [(R.tlsUp k, 1), (R.tlsSecret k, x), (R.vlState k, 4)] (fun d => { d with
        drawn := d.drawn + 1
        sent := [.vehicle k vkTls []] ++ if s.role = roleActive then [.pair 9 [k.val, x]] else [] }) [] s t) ∧
    ((o.tls13 && o.aes256gcm && o.secp521r1 && s.tlsKey (s.a (R.tlsSlot k))) = false → Does (.tlsHandshake k o) s
      (Effect [(R.tcpOpen k, 0), (R.tlsUp k, 0), (R.tlsSecret k, 0), (R.vlMsgNs k, -1), (R.vlSeqNs k, -1), (R.vlReneg k, 0),
        (R.vlRenegSent k, 0), (R.renegNs k, -1), (R.schedI k, 0)] (fun d => { d with sent := [.alert k 40] }) [] s)))

/-- Message and sequence time-outs, a closed connection and SLAC's time-out each stamp their link fault; a re-
negotiation falls due; a SLAC match is answered (R263, R267, R269, R270, R272, R273). -/
def Sys2Proof.Parts.VehicleTimes : Prop := ∀ (s : State) (k : Out), s.linked k = true → s.d.raised = [] →
  (0 ≤ s.o (R.vlMsgNs k) →
    (if s.os k = osEnergy then s.a (R.msgTimeoutLoopUs k) else s.a (R.msgTimeoutOtherUs k)) ≤ s.usSince (s.o (R.vlMsgNs k)) →
    Does (.messageTimeout k) s (Effect [(R.vlMsgNs k, -1), (R.seqNo, s.o R.seqNo + 1)] (s.takes .firmware 0 (.linkFault k 1)) [] s)) ∧
  (0 ≤ s.o (R.vlSeqNs k) → s.a (R.seqTimeoutUs k) ≤ s.usSince (s.o (R.vlSeqNs k)) →
    Does (.sequenceTimeout k) s (Effect [(R.vlSeqNs k, -1), (R.seqNo, s.o R.seqNo + 1)] (s.takes .firmware 0 (.linkFault k 2)) [] s)) ∧
  (s.o (R.tcpOpen k) = 1 →
    Does (.linkClosed k) s (Effect [(R.tcpOpen k, 0), (R.seqNo, s.o R.seqNo + 1)] (s.takes .firmware 0 (.linkFault k 3)) [] s)) ∧
  (0 ≤ s.o (R.renegNs k) → s.o (R.vlRenegSent k) ≠ 1 → s.a (R.renegDelayUs k) ≤ s.usSince (s.o (R.renegNs k)) →
    Does (.renegotiationDue k) s (Sets [(R.vlReneg k, 1)] s)) ∧
  (s.outlet k = 2 →
    (∀ atten : Nat, s.os k ≠ osIdle → (atten : Int) ≤ s.a (R.slacAttenMax k) → Does (.slacMatch k atten) s
      (Effect [(R.slacDone k, 1), (R.vlState k, 3)] (fun d => { d with sent := [.vehicle k vkSlac [(atten : Int)]] }) [] s)) ∧
    (s.os k = osConnected → s.o (R.slacDone k) ≠ 1 → s.o (R.linkFault k) ≠ 5 → 20000000 ≤ s.usSince (s.o (R.outNs k)) →
      Does (.slacTimeout k) s (Effect [(R.seqNo, s.o R.seqNo + 1)] (s.takes .firmware 0 (.linkFault k 5)) [] s)))

/-- Vehicle links and their times. -/
def Obligations.VehicleLinksAndTimes : Prop :=
  Sys2Proof.Parts.VehicleLink ∧ Sys2Proof.Parts.VehicleTimes

/-- A modem's good response shows its state, a bad check counts, and ten bad responses in a row take the modem out,
with link fault 5 where a session is on (R264, R273). -/
def Sys2Proof.Parts.ModemTransfers : Prop := ∀ (s : State) (p : Fe) (sel : Fin 2) (req : MdmReq) (resp : List Byte) (k : Nat),
  s.modemOut p sel = some k → s.onBus = true → s.island iVL ≠ 0 →
  let r := resp.map (·.toNat)
  let n := r.getD 2 0 * 256 + r.getD 3 0
  let asked : Sent := .modem p ((mdmOut req n).map (BitVec.ofNat 8))
  let crcOk := crc16 ((r.drop 4).take n) = r.getD (4 + n) 0 * 256 + r.getD (5 + n) 0
  (r.getD 0 0 = 0x5A → Does (.modemTransfer p sel req resp) s (Effect
    ([(R.mdmFail p sel, 0), (mdmState p sel, if (r.getD 1 0).testBit 6 then 1 else 2)]
      ++ if req = .read ∧ ¬ crcOk then [(R.mdmCrcErr p, s.o (R.mdmCrcErr p) + 1)] else [])
    (fun d => { d with sent := [asked] }) [] s)) ∧
  (r.getD 0 0 ≠ 0x5A → s.o (R.mdmFail p sel) + 1 < 10 ∨ s.o (mdmState p sel) = 3 → Does (.modemTransfer p sel req resp) s (Effect
    [(R.mdmFail p sel, s.o (R.mdmFail p sel) + 1)] (fun d => { d with sent := [asked] }) [] s)) ∧
  (r.getD 0 0 ≠ 0x5A → 10 ≤ s.o (R.mdmFail p sel) + 1 → s.o (mdmState p sel) ≠ 3 → s.d.raised = [] → k < 24 →
    (s.os k = osIdle → Does (.modemTransfer p sel req resp) s (Effect
      [(R.mdmFail p sel, s.o (R.mdmFail p sel) + 1), (mdmState p sel, 3)] (fun d => { d with sent := [asked] }) [] s)) ∧
    (∀ h : k < 24, s.os k ≠ osIdle → Does (.modemTransfer p sel req resp) s (Effect
      [(R.mdmFail p sel, s.o (R.mdmFail p sel) + 1), (mdmState p sel, 3), (R.seqNo, s.o R.seqNo + 1)]
      (fun d => s.takes .firmware 0 (.linkFault ⟨k, h⟩ 5) { d with sent := [asked] }) [] s)))

/-- At its stamp a pilot state is shown; a link fault closes the link; a vehicle that is present leaves IDLE at the
next frame; a pre-charge request sets its voltage and leaves the isolation test (R104, R106, R266). -/
def Sys2Proof.Parts.VehicleInputsLand : Prop := ∀ (u : State) (k : Out),
  (∀ code : Nat, Change [(R.pilotState k, code)] id u ((applyInput (.pilot k code)).run u)) ∧
  (∀ c : Nat, u.os k = osConnected → ((applyInput (.linkFault k c)).run u).o (R.linkFault k) = norm (R.linkFault k) c ∧
    ((applyInput (.linkFault k c)).run u).o (R.vlState k) = 2 ∧ ((applyInput (.linkFault k c)).run u).o (R.tcpOpen k) = 0) ∧
  (∀ pilot : Nat, u.os k = osIdle → u.o (R.outPend k) = 0 → u.lc ≠ 0 → u.lc ≠ 5 → u.mayLeaveIdle k = true → u.o (R.vehHere k) = 1 →
    Change [(R.pilotState k, pilot), (R.vehHere k, 1), (R.outPend k, osConnected + 1), (R.outPendCause k, 0)] id u
      ((applyInput (.present k pilot)).run u)) ∧
  (u.os k = osIso → u.o (R.isoResult k) = 1 ∨ u.o (R.isoResult k) = 2 → u.o (R.outPend k) = 0 → ∀ v,
    ((applyInput (.vehicle k (.preCharge v))).run u).o (R.outReqV k) = norm (R.outReqV k) v ∧
    ((applyInput (.vehicle k (.preCharge v))).run u).o (R.outPend k) = osPre + 1)

/-- Modem transfers and vehicle inputs at their stamp. -/
def Obligations.VehicleInputs : Prop :=
  Sys2Proof.Parts.ModemTransfers ∧ Sys2Proof.Parts.VehicleInputsLand

/-- Each exchange sends, on every enabled link, the commands that its plan picks, counts the cycle and the entries
deferred, and changes no command (R117, R121). -/
def Sys2Proof.Parts.SwitchgearCycle : Prop := ∀ s : State, s.sample % 125 = 0 → s.o (R.sglDone 0) ≠ (s.gcount : Int) → s.d.raised = [] →
  Does .sglCycle s fun t =>
    t.d.sent = ((upTo 4).filter fun l => s.a (R.sglEnable l) = 1 && s.onBus).map (fun l =>
      .sgl l ((s.sglPlan l).1.length * 16 + (15 - (s.sglPlan l).1.length))
        ((s.sglPlan l).1.map fun e => sglEntry e (s.o (R.expCmd (expNo l e))).toNat)) ∧
    (∀ l : Lnk, s.a (R.sglEnable l) = 1 → s.onBus = true →
      t.o (R.cycleCount l) = norm (R.cycleCount l) (s.o (R.cycleCount l) + 1) ∧
      t.o (R.entriesDeferred l) = norm (R.entriesDeferred l) (s.o (R.entriesDeferred l) + (s.sglPlan l).2)) ∧
    (∀ x, x < 128 → t.o (R.expCmd x) = s.o (R.expCmd x)) ∧
    Within [(R.sglDone 0, s.gcount)] [fam R.cycleCount 4, fam R.entriesDeferred 4, fam R.sglNext 4, fam R.expOld 128, fam R.expLast 128,
      fam R.expLeft 128] s t

/-- A response that passes its check is stamped; one that fails or is missing counts as a bad cycle of its expander
(R123, R124). -/
def Sys2Proof.Parts.SwitchgearResponses : Prop := ∀ (s : State) (l : Lnk) (e : Exp), s.expEnabled (expNo l e) = true →
  (∀ missing, Does (.sglResponseInvalid l e missing) s (Sets (s.badCycle l e missing) s)) ∧
  (∀ r, s.sglInjected l e = none → respValid e r = false → Does (.sglResponse l e r) s (Sets (s.badCycle l e false) s)) ∧
  (∀ r, s.sglInjected l e = some 0 → Does (.sglResponse l e r) s (Sets (s.badCycle l e true) s)) ∧
  (∀ r, s.sglInjected l e = none → respValid e r = true → s.d.raised = [] →
    (s.drives = true → Does (.sglResponse l e r) s
      (Effect [(R.seqNo, s.o R.seqNo + 1)] (s.takes .firmware 0 (.aux l e r)) [] s)) ∧
    (s.drives = false → (∀ x ∈ s.d.stamps, x.inp ≠ Input.aux l e r) → Does (.sglResponse l e r) s
      (Effect [] (fun d => { d with ownRx := (d.ownRx ++ [Input.aux l e r]).drop (d.ownRx.length - 255) }) [] s)))

/-- Switchgear exchanges and their responses. -/
def Obligations.SwitchgearCycles : Prop :=
  Sys2Proof.Parts.SwitchgearCycle ∧ Sys2Proof.Parts.SwitchgearResponses

/-- Twelve bad cycles lose an expander: its modules freeze, its outputs end or fault with cause 7 and no other output
moves; four good ones return it; a link is down when every expander of it is lost (R113, R123). -/
def Sys2Proof.Parts.ExpanderLossAndReturn : Prop := ∀ (s : State) (l : Lnk) (e : Exp),
  let x := expNo l e
  (s.expEnabled x = true → s.expLost x = false → 12 ≤ s.o (R.expBad x) → Does (.expanderLost l e) s fun t =>
    (∀ m, m < 48 → selExp m = x → t.o (R.frozenLost m) = 1) ∧
    (∀ k, k < 24 → outExp k = x → eligible (s.os k) = true → t.os k = osRamp ∧ t.o (R.outEndCause k) = 7) ∧
    (∀ k, k < 24 → outExp k = x → s.os k = osWeld → t.os k = osFault ∧ t.o (R.outEndCause k) = 7) ∧
    (∀ k, k < 24 → outExp k ≠ x → t.os k = s.os k) ∧
    Within [(R.expFlags x, withBit (s.o (R.expFlags x)) 3 true), (R.lostMask l, withBit (s.o (R.lostMask l)) e.val true)]
      (fam R.frozenLost 48 :: (· = R.sglLinkState l) :: sessionRegs) s t) ∧
  (s.expLost x = true → 4 ≤ s.o (R.expGood x) → Does (.expanderReturned l e) s fun t =>
    (∀ m, m < 48 → selExp m = x → t.o (R.frozenLost m) = 0) ∧
    Within [(R.expFlags x, withBit (s.o (R.expFlags x)) 3 false), (R.lostMask l, withBit (s.o (R.lostMask l)) e.val false)]
      [fam R.frozenLost 48, (· = R.sglLinkState l)] s t) ∧
  (s.a (R.sglEnable l) = 1 → s.o (R.sglLinkState l) ≠ 3 → (∃ f, f < 32 ∧ s.expEnabled (expNo l f) = true) →
    (∀ f, f < 32 → s.expEnabled (expNo l f) = true → 12 ≤ s.o (R.expBad (expNo l f))) →
    Does (.linkDown l) s (Effect [(R.sglLinkState l, 3)] id [word s (R.sglEventQueue l) 0x45 l 65535] s))

/-- A read-back is shown, with the one before it, at its own expander and at no other (R123). -/
def Sys2Proof.Parts.ReadbackApplies : Prop := ∀ (u : State) (l : Lnk) (e : Exp) (r : SglResp),
  let x := expNo l e
  let t := (applyInput (.aux l e r)).run u
  t.o (R.expAux x) = (r.aux % 65536 : Nat) ∧ t.o (R.expPrev x) = norm (R.expPrev x) (u.o (R.expAux x)) ∧
  t.o (R.expBad x) = 0 ∧ t.o (R.expRead x) = norm (R.expRead x) (u.o (R.expRead x) + 1) ∧
  (∀ y, y < 128 → y ≠ x → t.o (R.expAux y) = u.o (R.expAux y)) ∧
  t.active = u.active ∧ t.shadow = u.shadow

/-- Expander read-backs, loss and return. -/
def Obligations.ExpandersAreLostAndReturn : Prop :=
  Sys2Proof.Parts.ExpanderLossAndReturn ∧ Sys2Proof.Parts.ReadbackApplies

/-- An over-current event forces the leg of its polarity low and counts; a leg that does not modulate only counts
(R130, R131, R165). -/
def Sys2Proof.Parts.OverCurrentEvents : Prop := ∀ (s : State) (n : Ch) (window : Nat), s.o R.caRun = 1 →
  (s.modulates n = true → s.ocCondOf n window = 1 → s.o (R.ocPos n) ≠ 1 → Does (.ocEvent n window) s (Sets
    [(R.ocEvents n, s.o (R.ocEvents n) + 1), (R.chLimited n, 1), (R.ocPos n, 1), (R.chForced n, withBit (s.o (R.chForced n)) 0 true)] s)) ∧
  (s.modulates n = true → s.ocCondOf n window = 2 → s.o (R.ocNeg n) ≠ 1 → Does (.ocEvent n window) s (Sets
    [(R.ocEvents n, s.o (R.ocEvents n) + 1), (R.chLimited n, 1), (R.ocNeg n, 1), (R.chForced n, withBit (s.o (R.chForced n)) 1 true)] s)) ∧
  (s.modulates n = false → s.ocCondOf n window ≠ 0 → s.ocCondOf n (window / 2) ≠ s.ocCondOf n window →
    Does (.ocEvent n window) s (Sets [(R.ocEvents n, s.o (R.ocEvents n) + 1)] s))

/-- Repeated cycle-by-cycle limiting stops the leg for HICCUP_OFF_US, or latches it when its retries are spent, with a
fault card; a retry counts; a clean run clears the count (R166, R167, R171, R173). -/
def Sys2Proof.Parts.HiccupAndRetry : Prop := ∀ (s : State) (n : Ch), s.o (R.modConn (n / 4)) ≤ 24 →
  let m := n.val / 4
  let latch := s.a (R.retryMax m) ≤ s.o (R.retryCount n)
  (s.modulates n = true → s.a (R.cbcN m) ≤ s.o (R.cbcCnt n) → Does (.hiccupEntry n) s fun t =>
    (latch → t.o (R.latchMask m) = norm (R.latchMask m) (withBit (s.o (R.latchMask m)) (n.val % 4) true)) ∧
    (¬ latch → t.o (R.latchMask m) = s.o (R.latchMask m)) ∧
    t.o (R.lastCardNo m) = norm (R.lastCardNo m) (s.o (R.lastCardNo m) + 1) ∧
    Within [(R.chState n, if latch then csLatched else csHiccup), (R.chZ1 n, 0), (R.chZ2 n, 0), (R.chRef n, 0), (R.chIRef n, 0),
        (R.cbcCnt n, 0), (R.hicNs n, s.o R.now), (R.hiccupLeftUs n, if latch then 0 else s.a (R.hiccupOffUs m)),
        (R.protCause n, if latch then 2 else 1), (R.dwellEnd m, -1)]
      ([(· = R.latchMask m), (· = R.modState m), (· = R.modCapW m), (· = R.modFlags m), fam R.outGrantI 24] ++ cardRegs m) s t) ∧
  (s.hiccupOver n = true → s.o (R.tripCauses m) = 0 → Does (.hiccupRetry n) s fun t =>
    (s.legServes n = true → (t.cs n = csOpen ∨ t.cs n = csClosed) ∧
      t.o (R.retryCount n) = norm (R.retryCount n) (s.o (R.retryCount n) + 1)) ∧
    (s.legServes n = false → t.cs n = csOpen ∧ t.o (R.retryCount n) = s.o (R.retryCount n)) ∧
    (∀ j, j < 192 → j ≠ n.val → t.cs j = s.cs j) ∧ Within [] (modRegs m) s t) ∧
  (s.cs n = csClosed → s.a (R.cleanRunUs m) * 1000 ≤ s.o (R.cleanNs n) →
    Does (.cleanRunReset n) s (Sets [(R.retryCount n, 0), (R.cleanNs n, 0)] s))

/-- Over-current, hiccup and retry of a leg. -/
def Obligations.LegProtection : Prop :=
  Sys2Proof.Parts.OverCurrentEvents ∧ Sys2Proof.Parts.HiccupAndRetry

/-- A link over-voltage trips every available leg of the module with a card; a trip that is released, by its voltage
or its temperature dwell, returns the legs only when no other cause holds, and never a latched one (R160, R168, R170).
-/
def Sys2Proof.Parts.ModuleTripsAndReleases : Prop := ∀ (s : State) (m : Pm),
  (s.o (R.modConn m) ≤ 24 → 2 ≤ s.o (R.ovCnt m) → bit (s.o (R.tripCauses m)) tLinkOv = false → Does (.linkOvTrip m) s fun t =>
    (∀ n ∈ legs m, t.cs n = if s.avail n then csTripped else s.cs n) ∧
    t.o (R.lastCardNo m) = norm (R.lastCardNo m) (s.o (R.lastCardNo m) + 1) ∧
    Within [(R.tripCauses m, withBit (s.o (R.tripCauses m)) tLinkOv true), (R.dwellEnd m, -1)]
      ((· = R.tlatch m) :: fam R.outGrantI 24 :: (modRegs m ++ cardRegs m)) s t) ∧
  (bit (s.o (R.tripCauses m)) tLinkOv = true → 5000 ≤ s.o (R.ovLow m) → Does (.linkOvRelease m) s fun t =>
    let left := withBit (s.o (R.tripCauses m)) tLinkOv false
    (left ≠ 0 → ∀ n ∈ legs m, t.cs n = s.cs n) ∧
    (left = 0 → ∀ n ∈ legs m, s.cs n = csTripped → t.cs n = csOpen ∨ t.cs n = csClosed) ∧
    (left = 0 → ∀ n ∈ legs m, s.cs n = csLatched → t.cs n = csLatched) ∧
    Within [(R.tripCauses m, left)] ((· = R.tlatch m) :: modRegs m) s t) ∧
  (s.o (R.tlatch m) = 1 → 0 ≤ s.o (R.tlNs m) → s.a (R.tlatchDwellUs m) ≤ s.usSince (s.o (R.tlNs m)) →
    Does (.thermalRelease m) s fun t =>
      let left := withBit (withBit (s.o (R.tripCauses m)) tThermal false) tSensor false
      t.o (R.tlatch m) = 0 ∧
      (left ≠ 0 → ∀ n ∈ legs m, t.cs n = s.cs n) ∧
      (left = 0 → ∀ n ∈ legs m, s.cs n = csTripped → t.cs n = csOpen ∨ t.cs n = csClosed) ∧
      (left = 0 → ∀ n ∈ legs m, s.cs n = csLatched → t.cs n = csLatched) ∧
      Within [(R.tripCauses m, left)] ((· = R.tlatch m) :: modRegs m) s t)

/-- LATCH_CLEAR acts only on a module with no live trip cause: each latched leg opens with its counts at 0, and no
other leg moves (R170). -/
def Sys2Proof.Parts.LatchClearing : Prop := ∀ (u : State) (src : Src) (m : Pm),
  (u.o (R.tripCauses m) ≠ 0 → applied src (R.latchClear m) 1 u = u) ∧
  (u.o (R.tripCauses m) = 0 →
    let t := applied src (R.latchClear m) 1 u
    (∀ n ∈ legs m, u.cs n = csLatched → t.cs n = csOpen ∧ t.o (R.retryCount n) = 0 ∧ t.o (R.cbcCnt n) = 0) ∧
    (∀ n ∈ legs m, u.cs n ≠ csLatched → t.cs n = u.cs n ∧ t.o (R.retryCount n) = u.o (R.retryCount n) ∧
      t.o (R.cbcCnt n) = u.o (R.cbcCnt n)) ∧
    t.o (R.latchMask m) = 0 ∧ t.o (R.lastCardNo m) = norm (R.lastCardNo m) (u.o (R.lastCardNo m) + 1) ∧
    t.active = u.active ∧ t.shadow = u.shadow)

/-- Module trips, releases and latch clearing. -/
def Obligations.ModuleProtection : Prop :=
  Sys2Proof.Parts.ModuleTripsAndReleases ∧ Sys2Proof.Parts.LatchClearing

/-- In burst mode one kept module at a time carries the output for its half window, and each round of windows forms
the mean that ends burst (R163, R164). -/
def Sys2Proof.Parts.BurstWindows : Prop := ∀ (s : State) (k : Out), s.o (R.llMode k) = 2 → 0 ≤ s.o (R.llCount k) →
  s.halfEnd k (s.o (R.llCount k)).toNat ≤ (s.gNext - s.o (R.llStart k)) % 2147483648000 →
  let h := (s.o (R.llCount k)).toNat + 1
  let kept := s.llKept k
  let fires := if h % 2 = 0 then kept[burstRank kept.length h]? else none
  Does (.burstWindow k) s fun t =>
    (∀ m ∈ kept, t.o (R.modShare m) = if fires = some m then 32768 else 0) ∧
    (0 < kept.length → h % (2 * kept.length) = 0 → t.o (R.llSum k) = 0 ∧ t.o (R.llN k) = 0 ∧
      (s.a (R.burstExit k) * s.sumC k * s.o (R.llN k) < s.o (R.llSum k) * 32768 → t.o (R.llAbort k) = 1)) ∧
    (h % (2 * kept.length) ≠ 0 → t.o (R.llSum k) = s.o (R.llSum k) ∧ t.o (R.llN k) = s.o (R.llN k) ∧
      t.o (R.llAbort k) = s.o (R.llAbort k)) ∧
    Within [(R.llCount k, h)] [(· = R.llSum k), (· = R.llN k), (· = R.llAbort k), fam R.modShare 48, fam R.modOff 48,
      fam R.chShed 192, fam R.chState 192, fam R.chZ1 192, fam R.chZ2 192, fam R.chRef 192, fam R.chIRef 192] s t

/-- A self-test of an engine that passes only counts, or returns a failed engine; one that fails takes the channels of
that engine out of service and of no other, and shows in HEALTH (R39, R154). -/
def Sys2Proof.Parts.EngineTests : Prop := ∀ (s : State) (e : Isl), s.Fits → s.o R.caRun = 1 → s.o R.inGap ≠ 1 →
  s.frame % 1000 = 80 * e.val → s.o R.engTestFrame ≠ (s.frame : Int) → s.injects (148 + e.val) = false →
  (bit (s.o R.engineFailMask) e = false → Does (.engineSelfTest e true) s
    (Sets [(R.engTestFrame, s.frame), (R.engineTests, s.o R.engineTests + 1)] s)) ∧
  (bit (s.o R.engineFailMask) e = true → Does (.engineSelfTest e true) s
    (Within [(R.engTestFrame, s.frame), (R.engineTests, s.o R.engineTests + 1),
        (R.engineFailMask, withBit (s.o R.engineFailMask) e false)]
      [fam R.chRet 192, fam R.chStopped 192, fam R.chState 192, fam R.chZ1 192, fam R.chZ2 192, fam R.chRef 192, fam R.chIRef 192] s)) ∧
  (bit (s.o R.engineFailMask) e = false → Does (.engineSelfTest e false) s fun t =>
    (∀ n, n < 192 → s.o (R.chEngine n) = (e.val : Int) → t.o (R.chEngine n) = 255 ∧ t.cs n ≠ csClosed) ∧
    (∀ n, n < 192 → s.o (R.chEngine n) ≠ (e.val : Int) → t.o (R.chEngine n) = s.o (R.chEngine n) ∧ t.cs n = s.cs n) ∧
    Within [(R.engTestFrame, s.frame), (R.engineTests, s.o R.engineTests + 1),
        (R.engineFailMask, withBit (s.o R.engineFailMask) e true), (R.healthLast 2, s.frame),
        (R.health, ((s.o R.health).toNat ||| 4 : Nat))]
      [fam R.chEngine 192, fam R.chSlot 192, fam R.chRet 192, fam R.chStopped 192, fam R.chState 192, fam R.chZ1 192, fam R.chZ2 192,
        fam R.chRef 192, fam R.chIRef 192, fam R.loopEngine 24, fam R.vlRun 24] s t)

/-- A degrade flag clears 1,000 frames after its cause has gone, and no other flag with it (R40). -/
def Sys2Proof.Parts.DegradeFlagsEnd : Prop := ∀ (s : State) (b : Fin 8), s.next.val = 0 → 1 ≤ b.val → b.val ≠ 7 →
  bit (s.o R.degradeFlags) b = true → s.degradeCause b = false →
  1000 ≤ ((s.frame : Int) - s.o (R.degLast b)) % 4294967296 →
  Does (.degradeClear b) s (Sets [(R.degradeFlags, withBit (s.o R.degradeFlags) b false)] s)

/-- Burst windows, engine self-tests, degrade flags. -/
def Obligations.BurstsAndEngines : Prop :=
  Sys2Proof.Parts.BurstWindows ∧ Sys2Proof.Parts.EngineTests ∧ Sys2Proof.Parts.DegradeFlagsEnd

/-- Routing any list of sample powers conserves energy exactly at every meter: what its registers and residues gain is
the sum of the powers, imported and exported apart; residues stay below one count, registers never fall, and no other
meter's powers count (R185, R186). -/
def Obligations.EnergyIsConserved : Prop := ∀ (s : State) (l : List (Nat × Int)) (q : Nat), (∀ x ∈ l, x.1 < 26) → q < 26 →
  let t := (each l fun x => route x.1 x.2).run s
  let mine := l.filter fun x => decide (x.1 = q)
  t.imported q = s.imported q + (mine.map fun x => max x.2 0).sum ∧
  t.exported q = s.exported q + (mine.map fun x => max (-x.2) 0).sum ∧
  t.o (R.mSumP q) = s.o (R.mSumP q) + (mine.map Prod.snd).sum ∧ t.o (R.mN q) = s.o (R.mN q) + mine.length ∧
  (0 ≤ s.o (R.mResImp q) → s.o (R.mResImp q) < mwhK → 0 ≤ t.o (R.mResImp q) ∧ t.o (R.mResImp q) < mwhK) ∧
  (0 ≤ s.o (R.mResExp q) → s.o (R.mResExp q) < mwhK → 0 ≤ t.o (R.mResExp q) ∧ t.o (R.mResExp q) < mwhK) ∧
  s.o (R.mImp q) ≤ t.o (R.mImp q) ∧ s.o (R.mExp q) ≤ t.o (R.mExp q)

/-- A metrology sample's conversion is pending for the next, whose sample routes it: each meter gains the power of its
own earlier sample; the MET snapshot is taken; nothing beside the metrology's registers moves (R179, R185, R192). -/
def Sys2Proof.Parts.MeterSamples : Prop := ∀ (s : State) (dc : List DcSample) (grid : List GridSample), s.Fits → s.mtRuns = true →
  Does (.mtSample dc grid) s fun t =>
    t.d.mtPend = some (dc, grid) ∧ t.d.ledgerReq = [] ∧ t.d.reqs = s.d.reqs.filter (· != 267) ∧
    t.d.metSnap = ⟨s.shadow, s.d.reqs.filter (· = 267)⟩ ∧ t.d.metOld = ⟨s.d.metSnap.shadow, s.d.metOld.reqs ++ s.d.metSnap.reqs⟩ ∧
    (∀ k, k < s.nOut → t.o (R.mI k 1) = s.o (R.mI k 0) ∧ t.o (R.mV k 1) = s.o (R.mV k 0) ∧
      (∀ x, dc.find? (fun y => decide (y.k.val = k)) = some x →
        t.o (R.mI k 0) = (s.dcConv x).1 ∧ t.o (R.mV k 0) = (s.dcConv x).2.1)) ∧
    (∀ d g k x, s.d.mtPend = some (d, g) → k < s.nOut → d.filter (fun y => decide (y.k.val = k)) = [x] →
      t.imported k = s.imported k + max (s.dcPower x) 0 ∧ t.exported k = s.exported k + max (-s.dcPower x) 0 ∧
      t.o (R.mSumP k) = s.o (R.mSumP k) + s.dcPower x ∧ t.o (R.mN k) = s.o (R.mN k) + 1) ∧
    (s.d.mtPend = none → ∀ q, q < 26 → t.imported q = s.imported q ∧ t.exported q = s.exported q) ∧
    Within [(R.mtNo, s.o R.mtNo + 1), (R.mtInstN, s.o R.mtInstN + 1)]
      (energyRegs ++ sessionMeter ++ meterShown ++ [fam (R.mI · 0) 26, fam (R.mI · 1) 24, fam (R.mV · 0) 24, fam (R.mV · 1) 24,
        fam (R.gY 0) 4, fam (R.gY 1) 4, fam (R.gU 0) 4, fam (R.gU 1) 4, fam (R.gI2 0) 4, fam (R.gI2 1) 4, fam (R.gV2 0) 3,
        fam (R.gV2 1) 3, fam (R.gPs 0) 3, fam (R.gPs 1) 3, (· = R.zcArmed), (· = R.zcPrev), (· = R.zcDet), (· = R.zcPend),
        (· = R.zcRun), (· = R.zcTick)]) s t

/-- A latch boundary numbers the interval, shows the registers of every meter, forms its mean powers and begins the
sums anew, and no energy is gained or lost by it (R190, R191). -/
def Sys2Proof.Parts.IntervalsAreLatched : Prop := ∀ (s : State) (r0 r1 r2 : Int), s.Fits → s.mtRuns = true → s.o R.mtLatchDue = 1 →
  Does (.latchBoundary r0 r1 r2) s fun t =>
    t.o R.latchSeq = (s.o R.latchSeq + 1) % 4294967296 ∧ t.o R.latchTime = norm R.latchTime s.site ∧
    t.o R.mtLatchDue = 0 ∧ t.o R.mtLatchNo = s.o R.mtNo ∧
    t.o R.intervalUs = norm R.intervalUs (125 * (s.o R.mtNo - s.o R.mtLatchNo)) ∧
    (∀ k, k < s.nOut → t.o (R.dcEImp k) = norm (R.dcEImp k) (s.o (R.mImp k)) ∧ t.o (R.dcEExp k) = norm (R.dcEExp k) (s.o (R.mExp k)) ∧
      t.o (R.mSumP k) = 0 ∧ t.o (R.mN k) = 0 ∧
      (s.o (R.mN k) = 0 → t.o (R.dcPInt k) = 0) ∧
      (s.o (R.mN k) ≠ 0 → t.o (R.dcPInt k) = norm (R.dcPInt k) (rne (s.o (R.mSumP k)) (s.o (R.mN k) * 1000000000000)))) ∧
    (∀ q, q < 26 → t.imported q = s.imported q ∧ t.exported q = s.exported q) ∧
    (∀ g, g < 2 → t.o (R.gpEImp g) = norm (R.gpEImp g) (s.o (R.mImp (24 + g))) ∧
      t.o (R.gpEExp g) = norm (R.gpEExp g) (s.o (R.mExp (24 + g)))) ∧
    t.o R.gridImportW = norm R.gridImportW (t.o (R.gpPTot 0) + t.o (R.gpPTot 1))

/-- Metrology samples and latch boundaries. -/
def Obligations.MeterSamplesAndIntervals : Prop :=
  Sys2Proof.Parts.MeterSamples ∧ Sys2Proof.Parts.IntervalsAreLatched

/-- Latch ticks come from the mains crossings, from the internal source after the time-out, and from the mains again
after four crossings; LATCH_N ticks make a boundary due (R188, R189, R190). -/
def Sys2Proof.Parts.TicksComeFromTheMains : Prop := ∀ (s : State), s.Fits → s.mtRuns = true →
  (s.o R.zcPend = 1 → s.o R.mtNoMains ≠ 1 → Does .mainsCrossing s fun t => Ticks s t ∧
    Within [(R.zcPend, 0), (R.zcCounted, s.o R.mtNo), (R.zcTick, s.o R.zcDet)] (tickRegs ++ cycleRegs) s t) ∧
  (s.o R.zcPend = 1 → s.o R.mtNoMains = 1 → s.o R.zcRun < 3 → Does .mainsCrossing s (Sets
    [(R.zcPend, 0), (R.zcCounted, s.o R.mtNo), (R.zcTick, s.o R.zcDet), (R.zcRun, s.o R.zcRun + 1)] s)) ∧
  (s.o R.zcPend = 1 → s.o R.mtNoMains = 1 → 3 ≤ s.o R.zcRun → Does .mainsCrossing s fun t => Ticks s t ∧
    Within [(R.zcPend, 0), (R.zcCounted, s.o R.mtNo), (R.zcTick, s.o R.zcDet), (R.zcRun, 0), (R.mtNoMains, 0), (R.tickSource, 0)]
      (tickRegs ++ meterShown) s t) ∧
  (s.o R.mtNoMains ≠ 1 → s.a R.zcTimeoutUs ≤ 125 * (s.o R.mtNo - max 0 (s.o R.zcCounted)) → Does .zcTimeout s fun t => Ticks s t ∧
    Within [(R.mtNoMains, 1), (R.tickSource, 1), (R.zcRun, 0), (R.zcTick, -1)] (tickRegs ++ meterShown) s t) ∧
  (s.o R.tickSource = 1 → 160 ≤ s.o R.mtNo - s.o R.mtLastTick → Does .internalTick s fun t => Ticks s t ∧ Within [] tickRegs s t)

/-- Every second sample a driving unit stamps the reading of each output (R192); a pulse output starts a pulse when
one is owed and ends it after its width, counting it (R194, R195). -/
def Sys2Proof.Parts.MeterReadingsAndPulses : Prop := ∀ (s : State),
  (s.Fits → s.mtRuns = true → 2 ≤ s.o R.mtInstN → s.drives = true → Does .instReading s fun t =>
    t.d.stamps.length = s.d.stamps.length + s.nOut + (if s.produces then (sortRaised s.d.raised).length else 0) ∧
    (∀ k : Out, k.val < s.nOut → ∃ x ∈ t.d.stamps, x.inp = .inst k
      (rne (s.o (R.mI k 0) + s.o (R.mI k 1)) 2000) (rne (s.o (R.mV k 0) + s.o (R.mV k 1)) 2000)) ∧
    Within [(R.mtInstN, 0)] [] s t) ∧
  (s.mtRuns = true → 2 ≤ s.o R.mtInstN → s.drives = false → Does .instReading s (Sets [(R.mtInstN, 0)] s)) ∧
  (∀ j : Fin 8, s.o (R.puHigh j) ≠ 1 → 1 ≤ s.o (R.pulseBacklog j) →
    (s.o (R.puNs j) < 0 ∨ s.o (R.puW j) ≤ s.usSince (s.o (R.puNs j))) →
    Does (.pulseStart j) s (Sets [(R.puHigh j, 1), (R.puNs j, s.o R.now)] s)) ∧
  (∀ j : Fin 8, s.o (R.puHigh j) = 1 → s.o (R.puW j) ≤ s.usSince (s.o (R.puNs j)) →
    Does (.pulseEnd j) s (Sets [(R.puHigh j, 0), (R.puNs j, s.o R.now), (R.pulseBacklog j, s.o (R.pulseBacklog j) - 1),
      (R.pulseCount j, s.o (R.pulseCount j) + 1), (R.pulseOverrange j, if 10000 < s.o (R.pulseBacklog j) - 1 then 1 else 0)] s))

/-- Latch ticks, output readings and pulse outputs. -/
def Obligations.TicksReadingsAndPulses : Prop :=
  Sys2Proof.Parts.TicksComeFromTheMains ∧ Sys2Proof.Parts.MeterReadingsAndPulses

/-- An early warning, and every 60 s of running, save the totals; the warning ends without a save (R196, R197). -/
def Sys2Proof.Parts.TotalsAreSaved : Prop := ∀ (s : State),
  let kept (bodies : List Entry) : Data → Data := fun d =>
    { d with mtTotals := some { s.mtTake with unsigned := bodies }, mtClose := none }
  (∀ pfwIn vmetLow, s.o R.mtState = 2 → (pfwIn = true ∧ s.a R.pfwMode ≠ 1 ∨ vmetLow = true ∧ s.a R.pfwMode ≠ 2) →
    Does (.earlyWarning pfwIn vmetLow) s (Effect [(R.mtState, 3), (R.warnCount, s.o R.warnCount + 1), (R.mtSaveNs, s.o R.now),
      (R.lastSaveTime, s.site)] (kept s.d.ledgerDue) [] s)) ∧
  (s.o R.mtState = 3 → Does .warningEnd s (Sets [(R.mtState, 2)] s)) ∧
  (s.mtRuns = true → 60000000 ≤ s.usSince (s.o R.mtSaveNs) →
    Does .periodicTotalsSave s (Effect [(R.mtSaveNs, s.o R.now), (R.lastSaveTime, s.site)] (kept []) [] s))

/-- The meters' supply may fail between samples: no energy register moves, the totals are set aside, and recovery
restores the totals that were kept, or reports FAULT where none was (R198). -/
def Sys2Proof.Parts.MetersSurviveTheirPower : Prop := ∀ (s : State), s.Fits →
  (s.mtRuns = true → Does .vmetCut s fun t =>
    t.d.mtClose = some s.mtTake ∧ t.d.mtPend = none ∧ t.d.mtTotals = s.d.mtTotals ∧
    (∀ q, q < 26 → t.imported q = s.imported q ∧ t.exported q = s.exported q ∧ t.o (R.mN q) = 0 ∧ t.o (R.mSumP q) = 0) ∧
    Within [(R.mtState, 1), (R.zcArmed, 0), (R.zcPend, 0), (R.zcDet, -1), (R.zcTick, -1), (R.zcCounted, -1), (R.mtTickN, 0), (R.mtLatchDue, 0)]
      ([fam R.mSumP 26, fam R.mN 26, fam R.mOver 26] ++ meterShown) s t) ∧
  (s.o R.mtState = 1 → s.island iMT ≠ 4 → s.island iMT ≠ 5 → s.d.mtTotals = none → Does .mtRecovery s
    (Within [(R.mtState, 4), (R.mtWhole, 0), (R.islandState iMT, 5)] meterShown s)) ∧
  (∀ sv, s.o R.mtState = 1 → s.island iMT ≠ 4 → s.island iMT ≠ 5 → s.d.mtTotals ≠ none →
    (s.d.mtClose = some sv ∨ s.d.mtClose = none ∧ s.d.mtTotals = some sv) → Does .mtRecovery s fun t =>
      (∀ x ∈ mtKeys.zip sv.vals, (∃ q, q < 26 ∧ (x.1 = R.mImp q ∨ x.1 = R.mExp q ∨ x.1 = R.mResImp q ∨ x.1 = R.mResExp q)) → t.o x.1 = x.2) ∧
      t.d.mtClose = none ∧ t.o R.mtState = 2 ∧ t.o (R.islandState iMT) = 2 ∧ t.o R.mtLatchNo = s.o R.mtNo ∧ t.o R.mtSaveNs = s.o R.now)

/-- Saved totals and the loss of the meters' supply. -/
def Obligations.MeterTotals : Prop :=
  Sys2Proof.Parts.TotalsAreSaved ∧ Sys2Proof.Parts.MetersSurviveTheirPower

/-- A ledger entry takes the next sequence number and the registers of its meter; entries of types 1 and 8 leave 32
places; with no place left an entry is dropped and counted; signing writes the oldest waiting entry and shows the
newest number and the free places (R203, R204, R205, R207, R208). -/
def Obligations.LedgerEntriesAreWritten : Prop := ∀ (s : State),
  (∀ kind mtr flags va vb ref frame : Nat, let t := (writeEntry kind mtr flags va vb ref frame).run s
    ((kind = 1 ∨ kind = 8) → s.ledgerLeft ≤ 32 → t = s) ∧
    (kind ≠ 1 → kind ≠ 8 → s.ledgerLeft ≤ 0 →
      Change [(R.ledgerDropped, s.o R.ledgerDropped + 1), (R.mtFull, 1)] id s t) ∧
    ((if kind = 1 ∨ kind = 8 then 32 else 0) < s.ledgerLeft → ∃ e : Entry, e.kind = kind ∧ e.mtr = mtr ∧
      (e.seq : Int) = max 0 (s.o R.ledgerSeq + 1) ∧ e.frame = frame ∧ e.va = va ∧ e.vb = vb ∧ e.ref = ref ∧
      e.flags &&& flags = flags ∧ (mtr < 26 → (e.eImp : Int) = max 0 (s.o (R.mImp mtr)) ∧ (e.eExp : Int) = max 0 (s.o (R.mExp mtr))) ∧
      Change [(R.ledgerSeq, s.o R.ledgerSeq + 1)] (fun d => { d with ledgerDue := d.ledgerDue ++ [e] }) s t)) ∧
  (∀ e rest, s.d.ledgerDue = e :: rest → Does .ledgerEntrySigned s fun t =>
    t.d.ledgerDue = rest ∧
    (∃ sig : Nat, (e.flags.testBit 1 = true → sig = 0) ∧ t.d.ledger = (s.d.ledger.filter fun x => decide (e.seq < x.1 + 896)) ++
      [(e.seq, ofLe (slotBytes (s.o R.serial).toNat (s.o R.keyId).toNat e (leBytes 96 sig)))]) ∧
    (∀ x ∈ t.d.ledger, x ∈ s.d.ledger ∨ x.1 = e.seq) ∧
    t.o R.ledgerNewest = norm R.ledgerNewest ((t.d.ledger.map Prod.fst).foldl max (s.o R.ledgerNewest).toNat : Nat) ∧
    t.o R.ledgerFree = norm R.ledgerFree (896 - (t.o R.ledgerNewest - s.o R.ledgerAck)) ∧
    Within [] [(· = R.ledgerNewest), (· = R.ledgerOldest), (· = R.ledgerFree)] s t)

/-- A housekeeping round reads every channel: the raw value shows at once, a status only when two rounds agree; the
round's time is shown, and only the registers that readings feed may move (R210, R211, R212). -/
def Obligations.HousekeepingRounds : Prop := ∀ (s : State),
  (s.o R.hkRuns ≠ 1 → s.island iHK ≠ 0 → (s.o R.hkStart < 0 ∨ 100000 ≤ s.usSince (s.o R.hkStart)) →
    Does .hkRoundStart s (Sets [(R.hkRuns, 1), (R.hkStart, s.o R.now), (R.hkFrame, s.frame)] s)) ∧
  (∀ (ch : List (Nat × Int)) (die supply : List Int), s.Fits → s.o R.hkRuns = 1 → s.next.val = 0 → s.o R.hkFrame ≠ (s.frame : Int) →
    Does (.hkRoundEnd ch die supply) s fun t =>
      (∀ i v, i < 16 → die[i]? = some v → t.o (R.dieT i) = norm (R.dieT i) v) ∧
      (∀ i v, i < 24 → supply[i]? = some v → t.o (R.supply i) = norm (R.supply i) v) ∧
      (∀ c v, c < 64 → ch.filter (fun x => decide (x.1 = c)) = [(c, v)] →
        let st := if s.injectsArg 176 c then s.o (R.injValue 176)
          else (hkConvert (s.a (R.hkType c)) (s.a (R.ntcRnom c)) (s.a (R.ntcBeta c)) (s.a (R.engLo c)) (s.a (R.engHi c)) v).1
        let old := s.o (R.hkStatus c)
        t.o (R.hkRaw c) = norm (R.hkRaw c) v ∧
        (s.o (R.hkAny c) ≠ 1 ∨ st = old ∨ s.o (R.hkNew c) = st + 1 →
          t.o (R.hkStatus c) = norm (R.hkStatus c) st ∧ t.o (R.hkNew c) = 0) ∧
        (s.o (R.hkAny c) = 1 → st ≠ old → s.o (R.hkNew c) ≠ st + 1 →
          t.o (R.hkStatus c) = norm (R.hkStatus c) old ∧ t.o (R.hkNew c) = st + 1)) ∧
      Within [(R.hkRuns, 0), (R.hkRoundUs, ((s.frame + 4294967296 - (s.o R.hkFrame).toNat) % 4294967296 : Nat) * 1000)]
        [(· = R.degradeFlags), fam R.dieT 16, fam R.supply 24, (· = R.supplyLow), (· = R.vfldMv), fam R.hkRaw 64, fam R.hkAny 64,
         fam R.hkNew 64, fam R.hkStatus 64, fam R.hkValue 64, fam R.hkUse 64, fam R.hkUseSt 64, fam R.cabC 24, fam R.cabJ 24,
         fam R.cabW 24, fam R.cableCorr 24, fam R.cabSum 24, fam R.cabN 24, fam R.cabFrame 24, fam R.cabRun 24, fam R.cableFlags 24,
         fam R.tCond 24, fam R.tContact 24, fam R.tCool 24, fam R.tJacket 24, fam R.hotReq 24, fam R.clWant 8, fam R.clEndNs 8,
         fam R.clLowNs 8, fam R.clOkNs 8, fam R.clOnNs 8, fam R.loopFlags 8, fam R.loopFlow 8, fam R.stagesOn 8,
         (fun k => ∃ j, j < 8 ∧ fam (R.stNs j) 4 k), fam R.modHeadroom 48] s t)

/-- Each second every throttled source moves as its temperatures say, a module's derating is formed from the steps of
its heat sink and of the die, and no source without a sensor moves (R213, R215, R217, R225). -/
def Sys2Proof.Parts.ThrottlingSteps : Prop := ∀ (s : State), s.Fits → (∀ m, m < 48 → s.o (R.modConn m) ≤ 24) → s.next.val = 0 →
  s.frame % 1000 = 0 → s.o R.thrFrame ≠ (s.frame : Int) →
  let rel := s.a (R.throttleReleaseUs)
  let die := throttle (s.o R.dieSteps) (decide (10500 ≤ s.o R.dieMax)) (decide (s.o R.dieMax ≤ 10200)) (s.o R.thrDieNs) (s.o R.now) rel
  let cable := fun k => throttle (s.o (R.cableSteps k)) (s.cableHot k) (s.cableCold k) (s.o (R.cabRelNs k)) (s.o R.now) rel
  let sink := fun m => throttle (s.o (R.hsSteps m)) (decide (s.a (R.hsWarn m) ≤ s.o (R.hsTemp m)))
    (decide (s.o (R.hsTemp m) ≤ s.a (R.hsWarn m) - s.a (R.hsHyst m))) (s.o (R.hsRelNs m)) (s.o R.now) rel
  Does .throttleStep s fun t =>
    (∀ k, k < s.nOut → s.a (R.cableEnable k) = 1 → t.o (R.cableSteps k) = norm (R.cableSteps k) (cable k).1 ∧
      t.o (R.cabRelNs k) = (cable k).2) ∧
    (∀ k, k < s.nOut → s.a (R.cableEnable k) ≠ 1 → t.o (R.cableSteps k) = s.o (R.cableSteps k)) ∧
    (∀ m, m < s.nPm → s.a (R.hsSensor m) ≠ 255 → t.o (R.hsSteps m) = norm (R.hsSteps m) (sink m).1 ∧ t.o (R.hsRelNs m) = (sink m).2) ∧
    (∀ m, m < s.nPm → s.a (R.hsSensor m) = 255 → t.o (R.hsSteps m) = s.o (R.hsSteps m)) ∧
    (∀ m, m < s.nPm → t.o (R.modDerate m) =
      norm (R.modDerate m) (rne (32768 * (20 - t.o (R.hsSteps m)) * (20 - t.o R.dieSteps)) 400)) ∧
    Within [(R.thrFrame, s.frame), (R.dieSteps, die.1), (R.thrDieNs, die.2)]
      [fam R.cableSteps 24, fam R.cabRelNs 24, fam R.cableILim 24, fam R.outCapI 24, fam R.hsSteps 48, fam R.hsRelNs 48,
       fam R.modDerate 48, fam R.modCapW 48, fam R.modFlags 48, fam R.modState 48, fam R.dwellEnd 48, fam R.outGrantI 24] s t

/-- A throttle moves by one step at most, up at once, down only after its release time, and stays within 0 to 16
(R215). -/
def Sys2Proof.Parts.ThrottleMovesOneStep : Prop := ∀ (s0 relNs now releaseUs : Int) (above below : Bool), 0 ≤ s0 → s0 ≤ 16 →
  let r := throttle s0 above below relNs now releaseUs
  0 ≤ r.1 ∧ r.1 ≤ 16 ∧ s0 - 1 ≤ r.1 ∧ r.1 ≤ s0 + 1 ∧
  (above = true → r.1 = min (s0 + 1) 16 ∧ r.2 = -1) ∧
  (above = false → below = false → r = (s0, -1)) ∧
  (above = false → r.1 < s0 → 0 ≤ relNs ∧ releaseUs ≤ (now - relNs) / 1000 ∧ r.2 = now)

/-- Thermal throttling and derating. -/
def Obligations.Throttling : Prop :=
  Sys2Proof.Parts.ThrottlingSteps ∧ Sys2Proof.Parts.ThrottleMovesOneStep

/-- A field switch follows its source below every fault, with its pair (R227, R228, R230). -/
def Sys2Proof.Parts.SwitchesFollowTheirSources : Prop := ∀ (s : State) (j : Fs),
  (∀ high : Bool, bit (s.o R.fsDinState) j ≠ high → Does (.fsDinEdge j high) s fun t => Follows j s t ∧
    Within [(R.fsDinState, withBit (s.o R.fsDinState) j high)] switchRegs s t) ∧
  (∀ on : Bool, let t := (applyInput (.fsCmd j on)).run s
    Follows j s t ∧ t.o (R.fsCmd (s.fsGov j)) = (if on then 1 else 0) ∧
    (∀ k, k ≠ R.fsCmd (s.fsGov j) → (∀ p ∈ switchRegs, ¬ p k) → t.o k = s.o k) ∧ t.d = s.d)

/-- Loss of the field supply or of its ground, a restart of the field die and a reversed supply each show in FLD_STATE
and set every switch's output as the rule says; an over-voltage is raised when it comes and when it ends, and moves no
switch (R229, R238). -/
def Sys2Proof.Parts.FieldSupplyStates : Prop := ∀ (s : State),
  (s.o R.fldState ≠ 0 → Does .vfldLoss s fun t => AllOff 0 t ∧ Within [(R.fldState, 0)] fieldRegs s t) ∧
  (s.o R.fldState ≠ 1 → Does .fieldDieRestart s fun t => AllOff 0 t ∧ Within [(R.fldState, 1), (R.fldResync, 1)] fieldRegs s t) ∧
  (s.o R.fldState ≠ 4 → Does .fgndLoss s fun t => AllOff 0 t ∧ Within [(R.fldState, 4)] fieldRegs s t) ∧
  (s.o R.fldState ≠ 3 → Does .vfldReversed s fun t => AllOff 1 t ∧ t.o R.fsOnMask = 4294967295 ∧
    Within [(R.fldState, 3)] fieldRegs s t) ∧
  (s.o R.fldState = 2 → Does .vfldOvervoltage s
    (Effect [(R.fldState, 5)] id [word s R.fsEventQueue 0x63 255 5] s)) ∧
  (s.o R.fldState = 5 → Does .vfldOvervoltageEnd s
    (Effect [(R.fldState, 2)] id [word s R.fsEventQueue 0x63 255 2] s))

/-- Field switches, their sources and their supply. -/
def Obligations.FieldSwitchesFollow : Prop :=
  Sys2Proof.Parts.SwitchesFollowTheirSources ∧ Sys2Proof.Parts.FieldSupplyStates

/-- An overload or over-temperature turns the switch and its pair off, with the fault, to wait or to latch as its mode
and count say; a restart counts and follows the demand; ten seconds on clear the count; no other switch changes (R233,
R234). -/
def Sys2Proof.Parts.SwitchTripsAndRestarts : Prop := ∀ (s : State) (j : Fs), FaultsTyped s → s.fldRuns = true →
  let g := s.fsGov j
  let latch := s.a (R.fsOtMode g) = 1 ∨ s.a (R.fsRestartMax g) ≤ s.o (R.fsRestarts g)
  let trips (b : Nat) (t : State) : Prop := Shows j (if latch then 3 else 2) 0 s t ∧
    (∀ i ∈ s.fsGroup j, t.o (R.fsOffNs i) = s.o R.now ∧ t.o (R.fsFault i) = norm (R.fsFault i)
      (withBit (if latch then withBit (s.o (R.fsFault i)) 5 true else s.o (R.fsFault i)) b true)) ∧
    (∀ i, i < 32 → i ∉ s.fsGroup j → t.o (R.fsOn i) = s.o (R.fsOn i) ∧ t.o (R.fsState i) = s.o (R.fsState i) ∧
      t.o (R.fsFault i) = s.o (R.fsFault i)) ∧ Within [] (fam R.fsOffNs 32 :: switchRegs) s t
  (s.o (R.fsOn j) = 1 → Does (.fsOverload j) s (trips 3) ∧ Does (.fsOvertemp j) s (trips 4)) ∧
  (s.o (R.fsState g) = 2 → 100000 ≤ s.usSince (s.o (R.fsOffNs g)) → Does (.fsRestart j) s fun t =>
    (s.fsDemand j = true → Shows j 1 1 s t ∧
      ∀ i ∈ s.fsGroup j, t.o (R.fsRestarts i) = norm (R.fsRestarts i) (s.o (R.fsRestarts i) + 1)) ∧
    (s.fsDemand j = false → Shows j 0 0 s t ∧ ∀ i ∈ s.fsGroup j, t.o (R.fsRestarts i) = s.o (R.fsRestarts i)) ∧
    (∀ i ∈ s.fsGroup j, ∀ b, bit (t.o (R.fsFault i)) b = (bit (s.o (R.fsFault i)) b && decide (b < 3))) ∧
    Within [] (fam R.fsRestarts 32 :: switchRegs) s t) ∧
  (s.o (R.fsOn j) = 1 → 0 ≤ s.o (R.fsOnNs j) → 10000000 ≤ s.usSince (s.o (R.fsOnNs j)) → Does (.fsRestartCountReset j) s fun t =>
    (∀ i ∈ s.fsGroup j, t.o (R.fsRestarts i) = 0) ∧ (∀ i, i < 32 → i ∉ s.fsGroup j → t.o (R.fsRestarts i) = s.o (R.fsRestarts i)) ∧
    Within [] [fam R.fsRestarts 32] s t)

/-- Open load while on, and short to supply or open load found by the test pulse while off, set and clear their own
fault bits of that switch as the diagnosis says, a fault clearing after two good tests (R235). -/
def Sys2Proof.Parts.SwitchDiagnostics : Prop := ∀ (s : State) (j : Fs), FaultsTyped s → s.fldRuns = true →
  (∀ below : Bool, s.o (R.fsOn j) = 1 → s.a (R.fsOlOnMa (s.fsGov j)) ≠ 0 → Does (.fsOpenOn j below) s fun t =>
    (∀ i ∈ s.fsGroup j, t.o (R.fsFault i) = norm (R.fsFault i) (withBit (s.o (R.fsFault i)) 0 below)) ∧
    (∀ i, i < 32 → i ∉ s.fsGroup j → t.o (R.fsFault i) = s.o (R.fsFault i)) ∧ Within [] faultRegs s t) ∧
  (∀ mv1 mv2 : Int, s.o (R.fsOn j) ≠ 1 → s.a (R.fsOffDiag (s.fsGov j)) = 1 →
    (s.o (R.fsTestNs j) < 0 ∨ 100000 ≤ s.usSince (s.o (R.fsTestNs j))) → Does (.fsOffDiagTest j mv1 mv2) s fun t =>
      let short := vDiag < mv1
      (short → bit (t.o (R.fsFault j)) 2 = true ∧ t.o (R.fsNoShort j) = 0) ∧
      (¬ short → t.o (R.fsNoShort j) = s.o (R.fsNoShort j) + 1 ∧
        bit (t.o (R.fsFault j)) 2 = (bit (s.o (R.fsFault j)) 2 && decide (s.o (R.fsNoShort j) < 1))) ∧
      (vDiag < mv2 → bit (t.o (R.fsFault j)) 2 = false → bit (t.o (R.fsFault j)) 1 = true ∧ t.o (R.fsNoOpen j) = 0) ∧
      (mv2 ≤ vDiag ∨ bit (t.o (R.fsFault j)) 2 = true → t.o (R.fsNoOpen j) = s.o (R.fsNoOpen j) + 1 ∧
        bit (t.o (R.fsFault j)) 1 = (bit (s.o (R.fsFault j)) 1 && decide (s.o (R.fsNoOpen j) < 1))) ∧
      (∀ b, b ≠ 1 → b ≠ 2 → bit (t.o (R.fsFault j)) b = bit (s.o (R.fsFault j)) b) ∧
      (∀ i, i < 32 → i ≠ j.val → t.o (R.fsFault i) = s.o (R.fsFault i)) ∧
      Within [(R.fsTestNs j, s.o R.now), (R.fsV j, mv1)] (fam R.fsNoShort 32 :: fam R.fsNoOpen 32 :: faultRegs) s t)

/-- Field switch trips, restarts and diagnostics. -/
def Obligations.FieldSwitchFaults : Prop :=
  Sys2Proof.Parts.SwitchTripsAndRestarts ∧ Sys2Proof.Parts.SwitchDiagnostics

/-- A string that goes is ABSENT without capability and counted; one that comes settles with its identity and
capacity, or is in ID_FAULT where its code is 0; its carrier's gates open; no other string's state or charge moves
(R244, R246). -/
def Sys2Proof.Parts.StringIdentity : Prop := ∀ (s : State) (t : Bs), s.Fits →
  (∀ r p c, s.drives = true → s.batRead t r = some (p, c) → batSeen p c ≠ s.o (R.bsSeen t) →
    Does (.batIdChange t r) s (Effect [(R.seqNo, s.o R.seqNo + 1)] (s.takes .firmware 0 (.batId t p c)) [] s)) ∧
  (∀ p c, let u := (applyInput (.batId t p c)).run s
    let st := s.o (R.bsState t)
    u.o (R.bsSeen t) = batSeen p c ∧
    (st = bsUnassigned → u.o (R.bsState t) = bsUnassigned) ∧
    (st ≠ bsUnassigned → st ≠ bsAbsent → p = false → u.o (R.bsState t) = bsAbsent ∧ NoCapability t u ∧
      u.o (R.bsSwaps t) = norm (R.bsSwaps t) (s.o (R.bsSwaps t) + 1)) ∧
    (st ≠ bsUnassigned → p = true → s.a (R.bsIdMode t) = 2 → c = 0 → u.o (R.bsState t) = bsIdFault ∧ NoCapability t u) ∧
    (st ≠ bsUnassigned → p = true → (s.a (R.bsIdMode t) ≠ 2 ∨ c ≠ 0) → u.o (R.bsState t) = bsSettling ∧ NoCapability t u ∧
      u.o (R.bsIdCode t) = norm (R.bsIdCode t) c ∧ u.o (R.bsPresNs t) = s.o R.now ∧
      u.o (R.bsCInUse t) = norm (R.bsCInUse t) (if s.a (R.bsIdMode t) = 2 ∧ s.o (R.bsFolCode t) = c ∧ s.o (R.bsCLearned t) ≠ 0
        then s.o (R.bsCLearned t) else s.a (R.bsCNom t)) ∧ EstimateShown t u) ∧
    (st ≠ bsUnassigned → (p = true ∨ st ≠ bsAbsent) → ∀ m, s.bsCarrier t = some m → ∀ n ∈ legs m, u.cs n ≠ csClosed) ∧
    (∀ i, i < 16 → i ≠ t.val → u.o (R.bsState i) = s.o (R.bsState i) ∧ u.o (R.bsQ i) = s.o (R.bsQ i)))

/-- A string's folio is queued every 60 s and no other region's job is lost (R255). -/
def Sys2Proof.Parts.StringFoliosAreSaved : Prop := ∀ (s : State) (t : Bs), s.o (R.bsState t) ≠ bsUnassigned →
  60000000 ≤ s.usSince (s.o (R.bsSaveNs t)) → Does (.batteryFolioSave t) s fun u =>
    (∃ j ∈ u.d.folioJobs, j.region = 3 ∧ j.folio = t.val ∧ (j.vals = s.bsFolio t ∨ j.next = some (s.bsFolio t, []))) ∧
    (∀ j ∈ s.d.folioJobs, ¬ (j.region = 3 ∧ j.folio = t.val) → j ∈ u.d.folioJobs) ∧
    Within [(R.bsSaveNs t, s.o R.now), (R.bsFolCode t, s.o (R.bsIdCode t))] [fam R.regionState 4] s u

/-- Battery strings: identity and folios. -/
def Obligations.StringsAndTheirFolios : Prop :=
  Sys2Proof.Parts.StringIdentity ∧ Sys2Proof.Parts.StringFoliosAreSaved

/-- The estimator counts every string that is due by the charge that passed, within its capacity, shows it, and offers
no power outside its state and temperature (R247, R248, R253, R257). -/
def Sys2Proof.Parts.StringsAreCounted : Prop := ∀ (s : State) (overran : Bool), s.drives = true → s.o R.estFrame ≠ (s.frame : Int) →
  s.o R.apDown ≠ 1 →
  let passed := fun t => if s.o (R.bsLast t) < 0 then s.o (R.bsN t)
    else ((s.frame + 4294967296 - (s.o (R.bsLast t)).toNat) % 4294967296 : Nat)
  let due := fun t => s.bsCounts t && decide (s.o (R.bsN t) ≤ passed t)
  Does (.batteryUpdate overran) s fun u =>
    u.o R.estFrame = s.frame ∧ u.o R.estOver = (if overran then s.o R.estOver + 1 else 0) ∧
    u.o R.estOverruns = (if overran then norm R.estOverruns (s.o R.estOverruns + 1) else s.o R.estOverruns) ∧
    (∀ t, t < 16 → due t = false → u.o (R.bsQ t) = s.o (R.bsQ t) ∧ u.o (R.bsU t) = s.o (R.bsU t) ∧
      u.o (R.bsDisCapW t) = s.o (R.bsDisCapW t) ∧ u.o (R.bsChgCapW t) = s.o (R.bsChgCapW t)) ∧
    (∀ t, t < 16 → due t = true →
      let moved := s.o (R.bsIMean t) * passed t
      u.o (R.bsQ t) = clamp 0 (s.bsC t) (s.o (R.bsQ t) - moved) ∧ u.o (R.bsThruUc t) = s.o (R.bsThruUc t) + moved.natAbs ∧
      u.o (R.bsSinceMs t) = s.o (R.bsSinceMs t) + passed t ∧ u.o (R.bsU t) ≤ s.bsC t ∧ u.o (R.bsLast t) = s.frame ∧
      EstimateShown t u ∧
      (0 < u.o (R.bsDisCapW t) → s.o (R.bsState t) = bsRun ∧ s.bsTempIn t (s.a (R.bsTDisLo t)) (s.a (R.bsTDisHi t)) = true ∧
        u.o (R.bsDisCapW t) ≤ s.a (R.bsPDisMax t)) ∧
      (0 < u.o (R.bsChgCapW t) → s.o (R.bsState t) = bsRun ∧ s.bsTempIn t (s.a (R.bsTChgLo t)) (s.a (R.bsTChgHi t)) = true ∧
        u.o (R.bsChgCapW t) ≤ s.a (R.bsPChgMax t))) ∧
    (∀ t, t < 16 → u.o (R.bsState t) = s.o (R.bsState t)) ∧
    u.o R.batDisW = s.o R.batDisW ∧ u.o R.batChgW = s.o R.batChgW ∧ u.active = s.active ∧ u.shadow = s.shadow ∧
    (∃ x ∈ u.d.stamps, x.inp = .batCaps (sumOver (upTo 16) fun t => u.o (R.bsDisCapW t))
      (sumOver (upTo 16) fun t => u.o (R.bsChgCapW t)))

/-- Settling, rest, full and empty each set the string's charge and uncertainty as its rule says, and an empty string
that was full learns its capacity within 50 % to 110 % (R245, R249, R250, R251, R252). -/
def Sys2Proof.Parts.StringsFindTheirCharge : Prop := ∀ (s : State) (t : Bs), s.drives = true →
  norm (R.bsFlags t) (s.o (R.bsFlags t)) = s.o (R.bsFlags t) →
  let c := s.bsC t
  let counts := s.bsCounts t = true
  (s.o (R.bsState t) = bsSettling → 10000000 ≤ s.usSince (s.o (R.bsPresNs t)) →
    (s.o (R.bsKeep t) = 1 ∨ s.bsResting t = true) → Does (.settlingEnd t) s fun u =>
    (s.o (R.bsKeep t) = 1 → u.o (R.bsQ t) = s.o (R.bsQ t) ∧ u.o (R.bsU t) = s.o (R.bsU t)) ∧
    (∀ q, s.o (R.bsKeep t) ≠ 1 → s.ocvCharge t = some q →
      u.o (R.bsQ t) = q ∧ u.o (R.bsU t) = min (s.bsPart t (2 * s.a (R.bsOcvUnc t))) c) ∧
    (s.o (R.bsKeep t) ≠ 1 → s.ocvCharge t = none →
      u.o (R.bsQ t) = c / 2 ∧ u.o (R.bsU t) = c / 2 ∧ bit (u.o (R.bsFlags t)) 0 = true ∧ bit (u.o (R.bsFlags t)) 2 = true) ∧
    EstimateShown t u ∧ Within [(R.bsState t, bsRun)] ([(· = R.bsQ t), (· = R.bsU t)] ++ estimateRegs t) s u) ∧
  (counts → 0 ≤ s.o (R.bsRestNs t) → s.bsResting t = true →
    1800000000 * (s.o (R.bsRestCnt t) + 1) ≤ s.usSince (s.o (R.bsRestNs t)) →
    (s.ocvCharge t = none → Does (.restCorrection t) s (Sets [(R.bsRestCnt t, s.o (R.bsRestCnt t) + 1)] s)) ∧
    (∀ q, s.ocvCharge t = some q → Does (.restCorrection t) s fun u => EstimateShown t u ∧ bit (u.o (R.bsFlags t)) 2 = false ∧
      Within [(R.bsRestCnt t, s.o (R.bsRestCnt t) + 1), (R.bsQ t, q), (R.bsU t, min (s.bsPart t (s.a (R.bsOcvUnc t))) c),
        (R.bsThruUc t, 0), (R.bsSinceMs t, 0)] (estimateRegs t) s u)) ∧
  (counts → s.bsIsFull t = true → 0 ≤ s.o (R.bsFullNs t) → 60000000 ≤ s.usSince (s.o (R.bsFullNs t)) →
    Does (.fullAnchor t) s fun u => EstimateShown t u ∧ bit (u.o (R.bsFlags t)) 4 = true ∧ bit (u.o (R.bsFlags t)) 2 = false ∧
      Within [(R.bsQ t, c), (R.bsU t, min (s.bsPart t (s.a (R.bsEdgeUnc t))) c), (R.bsThruUc t, 0), (R.bsSinceMs t, 0),
        (R.bsFullNs t, s.o R.now), (R.bsLearnUc t, 0), (R.bsLearnNeg t, 0)] (estimateRegs t) s u) ∧
  (counts → s.bsIsEmpty t = true → 0 ≤ s.o (R.bsEmptyNs t) → 10000000 ≤ s.usSince (s.o (R.bsEmptyNs t)) →
    Does (.emptyAnchor t) s fun u =>
      let new := rne (s.o (R.bsLearnUc t)) 3600000
      let learns := bit (s.o (R.bsFlags t)) 4 = true ∧ s.a (R.bsCNom t) * 50 ≤ new * 100 ∧ new * 100 ≤ s.a (R.bsCNom t) * 110
      (learns → u.o (R.bsNewC t) = new ∧ u.o (R.bsLearnCount t) = norm (R.bsLearnCount t) (s.o (R.bsLearnCount t) + 1) ∧
        bit (u.o (R.bsFlags t)) 5 = false) ∧
      (¬ learns → u.o (R.bsNewC t) = s.o (R.bsNewC t) ∧ u.o (R.bsLearnCount t) = s.o (R.bsLearnCount t)) ∧
      bit (u.o (R.bsFlags t)) 4 = false ∧ EstimateShown t u ∧
      Within [(R.bsQ t, 0), (R.bsU t, min (s.bsPart t (s.a (R.bsEdgeUnc t))) c), (R.bsThruUc t, 0), (R.bsSinceMs t, 0),
        (R.bsEmptyNs t, s.o R.now)] ([(· = R.bsNewC t), (· = R.bsLearnCount t)] ++ estimateRegs t) s u) ∧
  (counts → bit (s.o (R.bsFlags t)) 2 = false → 259200000 ≤ s.o (R.bsSinceMs t) → Does (.lowConfidenceSet t) s
    (Effect [(R.bsFlags t, withBit (s.o (R.bsFlags t)) 2 true)] id [word s R.batEventQueue 0x76 t 1] s))

/-- Battery strings: counting and anchoring of charge. -/
def Obligations.StringCharge : Prop :=
  Sys2Proof.Parts.StringsAreCounted ∧ Sys2Proof.Parts.StringsFindTheirCharge

/-- A port's error counters move by 1 or 8, set its state and take it off the bus above 255; recovery, sleep, waking
and rejoining are as their rules say (R279, R283, R287). -/
def Sys2Proof.Parts.CanPortStates : Prop := ∀ (s : State) (p : Port),
  (∀ e : CanErr, s.onBus = true → (s.o (R.portState p) = 1 ∨ s.o (R.portState p) = 2) → Does (.canError p e) s fun t =>
    let n : Int := if e.major then 8 else 1
    CanCounted p (s.o (R.canTec p) + if e.transmitting then n else 0) (s.o (R.canRec p) + if e.transmitting then 0 else n) s t ∧
    Within [(R.lastError p, e.kind)] (portRegs p) s t) ∧
  (s.o (R.portState p) = 3 → (s.a (R.busoffAuto p) = 1 ∨ s.o (R.canRecover p) = 1) → Does (.busoffRecovered p) s
    (Effect [(R.canRecover p, 0), (R.canTec p, 0), (R.canRec p, 0), (R.portState p, 1)] id
      [word s (R.canEventQueue p) 0x92 p 0] s)) ∧
  (s.o (R.canSleep p) = 1 → s.o (R.canSending p) = 0 → (∀ b, b < 3 → s.txbBusy p b = false) →
    (s.o (R.portState p) = 1 ∨ s.o (R.portState p) = 2 ∨ s.o (R.portState p) = 5) →
    Does (.canSleepEntry p) s (Sets [(R.canSleep p, 0), (R.portState p, 4)] s)) ∧
  ((s.island iNW = 2 ∨ s.island iNW = 3) → s.o (R.portState p) = 4 → s.o (R.canRejoin p) ≠ 1 →
    (∀ us : Nat, s.a (R.wakeMode p) = 0 → s.a (R.wakeFilterUs p) ≤ us → Does (.canWake p (.dominant us)) s
      (Effect [(R.canSleep p, 0), (R.canRejoin p, 1), (R.wakeCount p, s.o (R.wakeCount p) + 1), (R.wakeCause p, 1)] id
        [word s (R.canEventQueue p) 0x93 p 1] s)) ∧
    (∀ f, s.a (R.wakeMode p) = 1 → s.wakesBy p f = true → Does (.canWake p (.frame f)) s fun t =>
      t.o (R.canRejoin p) = 1 ∧ t.o (R.wakeCount p) = norm (R.wakeCount p) (s.o (R.wakeCount p) + 1) ∧ t.o (R.wakeCause p) = 2 ∧
      t.o (R.rxOk p) = norm (R.rxOk p) (s.o (R.rxOk p) + 1))) ∧
  (s.o (R.canRejoin p) = 1 → s.canRuns p = true → Does (.canRejoin p) s
    (Sets [(R.canRejoin p, 0), (R.portState p, if s.onBus = false then 5
      else if 128 ≤ s.o (R.canTec p) ∨ 128 ≤ s.o (R.canRec p) then 2 else 1)] s))

/-- An idle bus takes the eligible buffer that goes first, with the frame that its registers spell; its outcome, lost
arbitration or error is counted and stamped (R281, R282, R284). -/
def Sys2Proof.Parts.CanTransmits : Prop := ∀ (s : State) (p : Port),
  (s.onBus = true → (s.o (R.portState p) = 1 ∨ s.o (R.portState p) = 2) → s.o (R.canSending p) = 0 → s.o (R.canStopDue p) ≠ 1 →
    (s.txbChoice p = none → Does (.canBusIdle p) s (Sets [] s)) ∧
    (∀ b, s.txbChoice p = some b → s.d.raised = [] →
      b < 3 ∧ s.txbEligible p b = true ∧
      (s.a (R.txGuardUs p) = 0 → ∀ c, c < 3 → s.txbEligible p c = true → s.txbRank p b ≤ s.txbRank p c) ∧
      Does (.canBusIdle p) s fun t =>
        (∃ data, t.d.sent = [.can p ((s.o (R.txbId (txb p b))).toNat % 536870912) (s.o (R.txbFlags (txb p b))).toNat data] ∧
          data.length = dlcLen (s.o (R.txbLen (txb p b))).toNat ∧
          ∀ i, i < (s.o (R.txbLen (txb p b))).toNat → i < 64 → data[i]? =
            ((leBytes 64 (s.o (R.txbData (txb p b))).toNat)[i]?).map (BitVec.ofNat 8)) ∧
        Within [(R.txbState (txb p b), 3), (R.txbAttempts (txb p b), s.o (R.txbAttempts (txb p b)) + 1),
          (R.canSending p, b + 1), (R.canSof p, s.site)] [(· = R.tdcMeasured p)] s t)) ∧
  (∀ b : Buf, s.o (R.canSending p) = b.val + 1 → s.o (R.canStopDue p) ≠ 1 → s.o (R.canTec p) ≤ 255 →
    let x := txb p b
    let sof := s.o (R.canSof p)
    let late := s.o (R.txbTime x) ≠ 0 ∧ s.o (R.txbTime x) + s.canBitNs p < sof
    let outcome (st : Nat) : Input := .canOutcome p b st sof.toNat
    ((s.o (R.portState p) = 1 ∨ s.o (R.portState p) = 2) → Does (.canTxComplete p .ok) s fun t =>
      CanCounted p (max 0 (s.o (R.canTec p) - 1)) (s.o (R.canRec p)) s t ∧
      (∃ y ∈ t.d.stamps, y.inp = outcome (if late then 5 else 4)) ∧
      Within [(R.canSending p, 0), (R.txOk p, s.o (R.txOk p) + 1)] [(· = R.canTec p), (· = R.canRec p), (· = R.portState p)] s t) ∧
    (s.o (R.txbStop x) ≠ 1 →
      Does (.canTxComplete p .arbLost) s
        (Sets [(R.canSending p, 0), (R.arbLost p, s.o (R.arbLost p) + 1), (R.txbState x, 2)] s) ∧
      Does (.canTxComplete p .error) s
        (Sets [(R.canSending p, 0), (R.txErrors p, s.o (R.txErrors p) + 1), (R.txbState x, 2)] s)) ∧
    (s.o (R.txbStop x) = 1 →
      Does (.canTxComplete p .arbLost) s (Effect [(R.canSending p, 0), (R.arbLost p, s.o (R.arbLost p) + 1),
        (R.seqNo, s.o R.seqNo + 1)] (s.takes .firmware 0 (outcome 6)) [] s) ∧
      Does (.canTxComplete p .error) s (Effect [(R.canSending p, 0), (R.txErrors p, s.o (R.txErrors p) + 1),
        (R.seqNo, s.o R.seqNo + 1)] (s.takes .firmware 0 (outcome 6)) [] s))) ∧
  (∀ b : Buf, s.o (R.txbState (txb p b)) = 1 → s.o (R.txbTime (txb p b)) ≤ s.site →
    Does (.timedTxDue p b) s (Sets [(R.txbState (txb p b), 2)] s))

/-- CAN ports: states, counters and transmission. -/
def Obligations.CanPortsTransmit : Prop :=
  Sys2Proof.Parts.CanPortStates ∧ Sys2Proof.Parts.CanTransmits

/-- A frame that a port receives counts and is stamped, a front end's report only where its check and counter are
right (R290); at its stamp the lowest filter that admits it takes it to its queue, or it is counted as unmatched or
dropped (R285, R286). -/
def Sys2Proof.Parts.CanReceives : Prop := ∀ (s : State) (p : Port) (f : CanFrame),
  ((s.island iNW = 2 ∨ s.island iNW = 3) → s.canRuns p = true → s.onBus = true →
    (s.o (R.portState p) = 1 ∨ s.o (R.portState p) = 2) → (f.fdf = true → s.a (R.canMode p) ≠ 0) → s.o (R.canTec p) ≤ 255 →
    let rec' := max 0 (min 127 (s.o (R.canRec p)) - 1)
    (s.isLotId p f = false → s.feOf p f = none → Does (.canFrameReceived p f) s fun t =>
      CanCounted p (s.o (R.canTec p)) rec' s t ∧ (∃ y ∈ t.d.stamps, y.inp = .canFrame p f) ∧
      Within [(R.rxOk p, s.o (R.rxOk p) + 1)] [(· = R.canTec p), (· = R.canRec p), (· = R.portState p)] s t) ∧
    (∀ r, s.isLotId p f = false → s.feOf p f = some r → Does (.canFrameReceived p f) s fun t =>
      let d := f.data.map (·.toNat)
      let alive : Int := (d.getD 0 0 / 16 : Nat)
      let ok := f.fdf = true ∧ d.length = 16 ∧ crc16 (d.take 14) = d.getD 14 0 * 256 + d.getD 15 0
      (s.injectsArg 173 r = false → (¬ ok ∨ alive = s.o (R.feAliveRx r)) →
        t.o (R.feBadReports r) = norm (R.feBadReports r) (s.o (R.feBadReports r) + 1) ∧ t.o (R.feAliveRx r) = s.o (R.feAliveRx r)) ∧
      (s.injectsArg 173 r = false → ok → alive ≠ s.o (R.feAliveRx r) →
        t.o (R.feAliveRx r) = alive ∧ t.o (R.feBadReports r) = s.o (R.feBadReports r) ∧
        ∃ (hr : r < 8), ∃ y ∈ t.d.stamps, y.inp = .feReport ⟨r, hr⟩ (d.getD 0 0 % 16) (d.getD 1 0)
          (signed 32 (ofLe ((d.drop 2).take 4))) (signed 32 (ofLe ((d.drop 6).take 4))) (signed 32 (ofLe ((d.drop 10).take 4)))) ∧
      Within [(R.rxOk p, s.o (R.rxOk p) + 1)]
        [(· = R.canTec p), (· = R.canRec p), (· = R.portState p), (· = R.feAliveRx r), (· = R.feBadReports r)] s t) ∧
    (s.isLotId p f = true → Does (.canFrameReceived p f) s fun t => t.o (R.rxOk p) = norm (R.rxOk p) (s.o (R.rxOk p) + 1) ∧
      (f.fdf = false → Within [] [(· = R.rxOk p), (· = R.canTec p), (· = R.canRec p), (· = R.portState p)] s t))) ∧
  (let u := (applyInput (.canFrame p f)).run s
   ((∀ i, i < 64 → s.fltAdmits (64 * p + i) f = false) → Change [(R.rxNoMatch p, s.o (R.rxNoMatch p) + 1)] id s u) ∧
   (∀ i, i < 64 → s.fltAdmits (64 * p + i) f = true → (∀ j, j < i → s.fltAdmits (64 * p + j) f = false) → s.d.raised = [] →
     let x := 64 * p.val + i
     let room := (s.queue (s.a (R.fltQueue x)).toNat).words.length + (canWords p i f).length ≤ 1024
     Change [if room then (R.fltHits x, s.o (R.fltHits x) + 1) else (R.rxDroppedFull p, s.o (R.rxDroppedFull p) + 1)]
       (fun d => { d with raised := [(R.fltQueue x, canWords p i f)] }) s u))

/-- Every FE_PERIOD_FRAMES each enabled front end is sent its command with its counter; one that is silent too long is
LOST (R289, R290). -/
def Sys2Proof.Parts.FrontEnds : Prop := ∀ (s : State),
  (s.next.val = 0 → 1 ≤ s.a R.fePort → s.a R.fePort ≤ 3 → s.o R.feDone ≠ (s.frame : Int) → s.o R.apDown ≠ 1 →
    (s.frame : Int) % (max 1 (s.a R.fePeriodFrames)) = 0 → s.island iNW ≠ 0 → Does .feCommand s fun t =>
      (∀ r, r < 8 → s.a (R.feEnable r) = 1 → t.o (R.feAlive r) = (s.o (R.feAlive r) + 1) % 16 ∧ t.o (R.feReset r) = 0 ∧
        ∃ x ∈ t.d.canFw, x.port = (s.a R.fePort - 1).toNat ∧ x.fe = some r ∧ x.id = (s.a R.feIdBase).toNat + 2 * r ∧
          x.data = (s.feFrame r ((s.o (R.feAlive r) + 1) % 16)).map (BitVec.ofNat 8)) ∧
      (∀ r, r < 8 → s.a (R.feEnable r) ≠ 1 → t.o (R.feAlive r) = s.o (R.feAlive r) ∧ t.o (R.feReset r) = s.o (R.feReset r)) ∧
      Within [(R.feDone, s.frame)] (canSends ++ [fam R.feAlive 8, fam R.feReset 8]) s t) ∧
  (∀ r : Fe, s.a (R.feEnable r) = 1 → 2 ≤ s.o (R.feState r) → s.o (R.feState r) ≤ 5 →
    s.a R.feTimeoutFrames ≤ ((s.frame + 4294967296 - (s.o (R.feLast r)).toNat) % 4294967296 : Nat) → Does (.feLost r) s
      (Effect [(R.feState r, 6)] id [word s (R.canEventQueue (s.a R.fePort - 1).toNat) 0x95 (0x20 + r) 6] s))

/-- CAN reception, filters and front ends. -/
def Obligations.CanPortsReceive : Prop :=
  Sys2Proof.Parts.CanReceives ∧ Sys2Proof.Parts.FrontEnds

/-- Every mains-pulse frame that the encoder forms, of any address, type, block count and content, is seen by the
receiver as the same address, type, block count and bits, with no error, no erasure and no correction (R295, R296,
R297, R298). -/
def Obligations.MplFramesAreDecoded : Prop := ∀ (addr type blocks : Nat) (data : List Nat), addr < 64 → type < 16 → 1 ≤ blocks →
  blocks ≤ 8 → (∀ x ∈ data, x < 256) →
  mplSee ((mplFrame addr type blocks data).map some) =
    ⟨0, some blocks, some (addr, type, ((data.flatMap fun x => msbBits 8 x) ++ List.replicate (26 * blocks - 18) false).take
      (26 * blocks - 18)), 0, false⟩

/-- A poll sends a broadcast that waits, else the next station's data; a beacon numbers itself; each loads exactly its
frame (R300, R301, R302). -/
def Sys2Proof.Parts.MplSends : Prop := ∀ (s : State), s.d.raised = [] →
  (s.mplReady 1 = true → s.o R.mplBcast = 1 → Does .mplPoll s (Effect [(R.mplBcast, 0), (R.mplSt, 1), (R.mplKind, 2)]
    (s.mplLoads 2 63 (mplBlocks (s.o R.bcastLen).toNat)
      ((leBytes 23 (s.o R.bcastData).toNat).take (s.o R.bcastLen).toNat)) [] s)) ∧
  (s.mplReady 1 = true → s.o R.mplBcast ≠ 1 → s.mplFrom 1 ≠ 0 →
    let a := if s.mplFrom (s.o R.mplAddr).toNat = 0 then s.mplFrom 1 else s.mplFrom (s.o R.mplAddr).toNat
    ∃ i, s.mplSlot a = some i ∧ Does .mplPoll s (Effect [(R.mplAddr, a), (R.mplSt, 1), (R.mplKind, 0)]
      (s.mplLoads 0 a (mplBlocks (s.o (R.stTxLen i)).toNat)
        ((leBytes 23 (s.o (R.stTxData i)).toNat).take (s.o (R.stTxLen i)).toNat)) [] s)) ∧
  (s.mplReady 2 = true → Does .mplBeacon s
    (Effect [(R.mplAddr, s.mplFrom 1), (R.mplSt, 1), (R.mplKind, 8), (R.mplBeacons, s.o R.mplBeacons + 1)]
      (s.mplLoads 8 63 1 [(s.o R.mplBeacons).toNat % 256]) [] s))

/-- Each counted zero crossing of a phase sends one bit of its frame; the reference phase measures the line and ends
the frame; no other phase's crossing moves the exchange (R293, R303). -/
def Sys2Proof.Parts.MplCrossings : Prop := ∀ (s : State) (ph : Fin 3), s.a R.mplMode ≠ 0 → s.island iNW ≠ 0 → s.island iNW ≠ 4 →
  s.injectsArg 174 ph = false → 0 ≤ s.a R.mplPhaseSel → s.a R.mplPhaseSel ≤ 2 →
  let per := s.o R.now - s.o (R.mplDet ph)
  let counted := 0 ≤ s.o (R.mplDet ph) ∧ 7690000 ≤ per ∧ per ≤ 11110000
  let ref := s.a R.mplPhaseSel = (ph.val : Int)
  let waiting := s.d.mplOut.getD ph []
  let sends := if ref then s.o R.mplSt = 1
    else (s.d.mplOut.getD (s.a R.mplPhaseSel).toNat []).length < waiting.length
  (¬ counted → ref → Does (.mplCrossing ph) s (Sets [(R.mplDet ph, s.o R.now), (R.mplRet, 0)] s)) ∧
  (¬ counted → ¬ ref → Does (.mplCrossing ph) s (Sets [(R.mplDet ph, s.o R.now)] s)) ∧
  (counted → Does (.mplCrossing ph) s fun t =>
    (sends → t.o (R.mplTxBit ph) = (if waiting.headD false then 1 else 0) ∧ t.d.mplOut.getD ph [] = waiting.drop 1) ∧
    (¬ sends → t.o (R.mplTxBit ph) = 0 ∧ t.d.mplOut = s.d.mplOut) ∧
    (ref → t.o R.mplLast = s.o R.now ∧ t.o R.mplRet = min 16 (s.o R.mplRet + 1) ∧ t.d.mplT.length = min 16 (s.d.mplT.length + 1) ∧
      t.o R.lineFreq = norm R.lineFreq (rne 1000000000000 (2 * max 1 t.mplTh))) ∧
    (ref → s.o R.mplSt = 1 → waiting.length ≤ 1 → t.o R.framesTx = norm R.framesTx (s.o R.framesTx + 1) ∧
      t.o R.mplSt = (if s.o R.mplKind = 2 then 0 else if s.o R.mplKind = 8 then 5 else 2)) ∧
    (ref → s.o R.mplSt = 1 → 1 < waiting.length → t.o R.mplSt = 1 ∧ t.o R.framesTx = s.o R.framesTx) ∧
    (¬ ref → Within [(R.mplDet ph, s.o R.now)] [(· = R.mplTxBit ph)] s t) ∧
    Within [(R.mplDet ph, s.o R.now)] [(· = R.mplTxBit ph), (· = R.lineFreq), (· = R.mplLast), (· = R.mplRet), (· = R.mplGap),
      (· = R.mplWait), (· = R.mplSt), (· = R.mplGot), (· = R.framesTx)] s t)

/-- Mains-pulse polls, beacons and zero crossings. -/
def Obligations.MplTraffic : Prop :=
  Sys2Proof.Parts.MplSends ∧ Sys2Proof.Parts.MplCrossings

/-- A reply is taken on the best phase, a wrong or missing one is lost with its cause, a silent slot ends, and the
loss and return of the mains are raised (R299, R300, R302, R304, R305). -/
def Sys2Proof.Parts.MplRepliesAndLosses : Prop := ∀ (s : State),
  (s.o R.mplSt = 2 → 6 ≤ s.o R.mplWait → s.onBus = true → Does .mplNoReply s
    (Effect [(R.mplSt, 3), (R.seqNo, s.o R.seqNo + 1)] (s.takes .firmware 0 (.mplLost (s.o R.mplAddr).toNat 4)) [] s)) ∧
  (s.o R.mplSt = 5 → (s.o R.mplAddr = 0 ∨ 151 ≤ s.o R.mplWait) → s.onBus = true → Does .mplSlotEnd s fun t =>
    let a := (s.o R.mplAddr).toNat
    let n := if a = 0 then 0 else s.mplFrom (a + 1)
    (a ≠ 0 → s.o R.mplGot ≠ 1 → ∃ x ∈ t.d.stamps, x.inp = .mplLost a 5) ∧
    (n = 0 → t.o R.mplSt = 0 ∧ t.o R.pollRound = norm R.pollRound (s.o R.pollRound + 1) ∧ t.o R.mplAddr = s.o R.mplAddr) ∧
    (n ≠ 0 → t.o R.mplSt = 5 ∧ t.o R.pollRound = s.o R.pollRound ∧ t.o R.mplAddr = n) ∧
    Within [(R.mplGot, 0), (R.mplWait, 1)] [(· = R.mplSt), (· = R.pollRound), (· = R.mplAddr)] s t) ∧
  (∀ rx : List MplRx, s.a R.mplMode ≠ 0 → s.o R.mplState = 1 → (s.o R.mplSt = 2 ∨ s.o R.mplSt = 5) → s.onBus = true →
    let use := rx.filter fun x => s.a R.mplPhases = 1 || decide ((x.phase.val : Int) = s.a R.mplPhaseSel)
    let best := mplBest (use.map fun x => (x.phase.val, mplSee x.bits))
    let a := (s.o R.mplAddr).toNat
    (best = none → Does (.mplFrameReceived rx) s (Sets [] s)) ∧
    (∀ p x, best = some (p, x) → x.valid = false → Does (.mplFrameReceived rx) s fun t =>
      (∃ y ∈ t.d.stamps, y.inp = .mplLost a x.cause) ∧ t.o R.mplSt = (if s.o R.mplSt = 2 then 3 else 5) ∧
      Within [] [(· = R.mplSt)] s t) ∧
    (∀ p x addr type bits b, best = some (p, x) → x.valid = true → x.msg = some (addr, type, bits) → x.blocks = some b →
      (s.a R.mplMode = 2 → 2 < b → Does (.mplFrameReceived rx) s fun t =>
        (∃ y ∈ t.d.stamps, y.inp = .mplLost a 2) ∧ t.o R.mplSt = (if s.o R.mplSt = 2 then 3 else 5) ∧ Within [] [(· = R.mplSt)] s t) ∧
      ((type ≠ 1 ∨ addr ≠ a) → (s.a R.mplMode = 2 → b ≤ 2) → Does (.mplFrameReceived rx) s (Sets [] s)) ∧
      (type = 1 → addr = a → (s.a R.mplMode = 2 → b ≤ 2) → Does (.mplFrameReceived rx) s fun t =>
        (∃ y ∈ t.d.stamps, ∃ data, y.inp = .mplReply a 1 b (if s.a R.mplPhases = 1 then p else 3) (min x.erased 255) data x.touched ∧
          data.length = (26 * b - 11) / 8) ∧
        t.o R.mplSt = (if s.o R.mplSt = 2 then 3 else 5) ∧ Within [] [(· = R.mplSt)] s t))) ∧
  (s.o R.mplState = 1 → 3 * s.mplTh ≤ s.o R.now - s.o R.mplLast → Does .mplNoMains s
    (Effect [(R.mplState, 2), (R.mplRet, 0), (R.mplSt, 0), (R.mplGap, 0), (R.mplTxBit 0, 0), (R.mplTxBit 1, 0), (R.mplTxBit 2, 0)]
      (fun d => { d with mplOut := [[], [], []] }) [word s R.mplEventQueue 0xA3 255 1] s)) ∧
  (s.o R.mplState = 2 → 16 ≤ s.o R.mplRet → Does .mplMainsReturn s
    (Effect [(R.mplState, 1)] id [word s R.mplEventQueue 0xA3 255 0] s))

/-- A loss counts at its own station, which is LOST at MISS_LIMIT; a reply clears the count (R301, R305). -/
def Sys2Proof.Parts.MplStationHealth : Prop := ∀ (s : State) (addr i : Nat), s.mplSlot addr = some i →
  (let u := (applyInput (.mplLost addr 5)).run s
   u.o (R.stFails i) = norm (R.stFails i) (s.o (R.stFails i) + 1) ∧
   (s.a R.missLimit ≤ s.o (R.stFails i) + 1 → u.o (R.mplStState i) = 3) ∧
   (s.o (R.stFails i) + 1 < s.a R.missLimit → u.o (R.mplStState i) = s.o (R.mplStState i)) ∧
   (∀ k, k ≠ R.stFails i → k ≠ R.mplStState i → u.o k = s.o k)) ∧
  (∀ blocks phase erased data corrected, let u := (applyInput (.mplReply addr 1 blocks phase erased data corrected)).run s
   u.o (R.stFails i) = 0 ∧ u.o (R.mplStState i) = 2 ∧ u.o (R.stLastFrame i) = norm (R.stLastFrame i) s.frame ∧
   u.o R.framesOk = norm R.framesOk (s.o R.framesOk + 1) ∧
   u.o R.framesCorrected = (if corrected then norm R.framesCorrected (s.o R.framesCorrected + 1) else s.o R.framesCorrected) ∧
   (s.a R.mplMode = 1 → u.o R.mplSt = 0 ∧ u.o R.mplGap = 3 ∧ u.o R.mplTry = 0) ∧ (s.a R.mplMode ≠ 1 → u.o R.mplGot = 1) ∧
   (phase < 3 → s.o (R.stPhLast i) = phase → 2 ≤ s.o (R.stPhCnt i) → u.o (R.stPhase i) = phase))

/-- Mains-pulse replies, losses and station health. -/
def Obligations.MplRepliesAndLosses : Prop :=
  Sys2Proof.Parts.MplRepliesAndLosses ∧ Sys2Proof.Parts.MplStationHealth

/-- No message of the pair link moves anything but the lanes' own registers where neither lane brought a good copy:
errors are counted per lane that brought a bad one, the link shows down, and its alarm is set (R308, R315). -/
def Sys2Proof.Parts.PairMessagesNeedALane : Prop := ∀ (s : State) (l : Lanes) (m : SampleMsg) (f n q : Nat) (src : Src) (inp : Input) (b : Bool)
  (g : JoinSeg) (k : Out) (v : Int), s.listens →
  norm R.pairAlarm (s.o R.pairAlarm) = s.o R.pairAlarm → s.laneGood 0 l.a = false → s.laneGood 1 l.b = false →
  ∀ c ∈ pairMessages l m f n q src inp b g k v, Does c s fun t =>
    t.o R.laneErrA = (if l.a = 0 then s.o R.laneErrA else norm R.laneErrA (s.o R.laneErrA + 1)) ∧
    t.o R.laneErrB = (if l.b = 0 then s.o R.laneErrB else norm R.laneErrB (s.o R.laneErrB + 1)) ∧
    t.o R.pairLinkState = 0 ∧ t.o (R.laneBad 0) = 1 ∧ t.o (R.laneBad 1) = 1 ∧
    bit (t.o R.pairAlarm) 3 = true ∧ t.d.hashes = s.d.hashes ∧ t.d.ownRx = s.d.ownRx ∧
    Within [] laneRegs s t

/-- Each message of the pair link has its effect in the roles that its rule names: mirrored inputs wait for their
stamp, checksums are compared, mismatches, verdicts, yields, swaps, secrets and forwarded writes are taken (R313,
R317, R319, R322, R326, R327). -/
def Sys2Proof.Parts.PairMessagesTakeEffect : Prop := ∀ (s : State) (l : Lanes), s.pairHears l →
  (∀ frame sample seq src inp, s.o R.pairRole = roleStandby → (∀ x ∈ s.d.ownRx, sameSender inp x = false) →
    0 < s.stampAhead frame sample → Does (.pairMirror frame sample seq src inp l) s fun t =>
      t.d.stamps = s.d.stamps ++ [⟨frame, sample, srcCode src, srcInst src, 0, seq, src, inp⟩] ∧
      t.o R.seqNo = (seq : Int) + 1 ∧ Within [] laneRegs s t) ∧
  (∀ frame sum : Nat, (frame : Int) = s.o R.frameNo → (sum : Int) = s.o R.stateSum → s.o R.pairRole = roleStandby →
    Does (.pairChecksum frame sum l) s (Within [(R.sumBad, 0)] laneRegs s)) ∧
  (∀ frame sum : Nat, (frame : Int) = s.o R.frameNo → (sum : Int) = s.o R.stateSum →
    (s.o R.pairRole = roleSuspect ∨ s.o R.pairRole = roleSolo) →
    Does (.pairChecksum frame sum l) s (Within [(R.sumBad, 0), (R.joinCnt, min 16 (s.o R.joinCnt + 1))] laneRegs s)) ∧
  (∀ frame sum : Nat, (frame : Int) = s.o R.frameNo → (sum : Int) ≠ s.o R.stateSum → s.o R.pairRole = roleStandby →
    (s.o R.stocktakeState = 3 → (s.o R.segIsland).toNat < 16) → Does (.pairChecksum frame sum l) s fun t =>
      t.o R.pairRole = (if 1 ≤ s.o R.sumBad then roleSuspect else roleStandby) ∧
      (s.o R.sumBad < 1 → t.o R.claim = s.o R.claim) ∧ (1 ≤ s.o R.sumBad → t.o R.claim = 0 ∧ t.o R.gatesLow = 0) ∧
      Within [(R.sumBad, s.o R.sumBad + 1), (R.joinCnt, 0), (R.sumMismatches, s.o R.sumMismatches + 1)]
        (laneRegs ++ roleRegs ++ [(· = R.healthLast 6), (· = R.claim), (· = R.joining), (· = R.gatesLow)]) s t) ∧
  (∀ frame sum : Nat, (frame : Int) = s.o R.frameNo → (sum : Int) ≠ s.o R.stateSum → s.o R.pairRole = roleActive →
    Does (.pairChecksum frame sum l) s fun t => (1 ≤ s.o R.sumBad → t.o R.partnerRole = 4) ∧
      (s.o R.sumBad < 1 → t.o R.partnerRole = s.o R.partnerRole) ∧
      Within [(R.sumBad, s.o R.sumBad + 1), (R.joinCnt, 0), (R.sumMismatches, s.o R.sumMismatches + 1)]
        (laneRegs ++ [(· = R.healthLast 6), (· = R.partnerRole)]) s t) ∧
  (∀ frame sum : Nat, (frame : Int) = s.o R.frameNo → (sum : Int) ≠ s.o R.stateSum →
    (s.o R.pairRole = roleSuspect ∨ s.o R.pairRole = roleSolo) →
    Does (.pairChecksum frame sum l) s (Within [(R.joinCnt, 0)] laneRegs s)) ∧
  (∀ frame sample mask, s.o R.pairRole = roleActive → s.o R.diagRun = 0 → Does (.pairMismatch frame sample mask l) s
    (Within [(R.gatesLow, 1), (R.diagRun, 1), (R.diagOwn, 0), (R.diagPart, 0), (R.pairMisAt, (frame * 500 + sample : Nat)),
      (R.pairMisMask, mask), (R.pairMisFrame, s.frame), (R.mismatchEvents, s.o R.mismatchEvents + 1)] laneRegs s)) ∧
  (∀ fault : Bool, s.o R.diagRun = 1 → Does (.pairVerdict fault l) s (Within [(R.diagPart, if fault then 2 else 1)] laneRegs s)) ∧
  (s.o R.pairRole = roleStandby → (s.o R.stocktakeState = 3 → (s.o R.segIsland).toNat < 16) → Does (.pairYield l) s
    (Within [(R.claim, 1), (R.takeCause, 3), (R.pairRole, roleSwapping)] (laneRegs ++ roleRegs) s)) ∧
  (∀ frame : Nat, s.o R.pairRole = roleStandby → Does (.pairSwapMsg frame l) s (Within [(R.swapPfb, frame)] laneRegs s)) ∧
  (∀ (k : Out) (secret : Nat), s.drives = false → Does (.pairSecret k secret l) s
    (Within [(R.tlsSecret k, secret), (R.tlsUp k, 1), (R.tcpOpen k, 1)] laneRegs s)) ∧
  (∀ src val, (s.o R.pairRole = roleActive ∨ s.o R.pairRole = roleSwapping) →
    Does (.pairForward (R.swapReq / 256) (R.swapReq % 256) src val l) s fun t =>
      (∃ x ∈ t.d.stamps, x.inp = .write src R.swapReq val ∧ x.frame = s.dueAt.1 ∧ x.sample = s.dueAt.2) ∧ Within [] laneRegs s t)

/-- Messages of the pair link. -/
def Obligations.PairMessages : Prop :=
  Sys2Proof.Parts.PairMessagesNeedALane ∧ Sys2Proof.Parts.PairMessagesTakeEffect

/-- A standby compares each sample's hashes with its own: agreement clears the run of mismatches, the third mismatch
in a row starts the diagnosis (R315, R319). -/
def Sys2Proof.Parts.PairSamplesAreCompared : Prop := ∀ (s : State) (l : Lanes) (m : SampleMsg), s.pairHears l → m.hashes.length = 12 →
  let pairRegs : List (Key → Prop) := [(· = R.sfDiffNs), (· = R.sfEnd), fam R.outLock 24, fam R.outTripCause 24, (· = R.scoCut), (· = R.sfState),
    (· = R.sfTripCount), (· = R.tripCause)] ++ laneRegs
  let own := s.d.hashes.find? fun x => decide (x.1 = m.frame) && decide (x.2.1 = m.sample)
  (s.o R.pairRole ≠ roleStandby → Does (.pairSample m l) s (Within
    [(R.pairSampleNs, s.o R.now), (R.sfPartner, m.sfState), (R.sfPartnerCut, m.scoCut), (R.sfPartnerLocks, m.outLocks)] pairRegs s)) ∧
  (s.o R.pairRole = roleStandby → own = none → Does (.pairSample m l) s (Within
    [(R.pairSampleNs, s.o R.now), (R.sfPartner, m.sfState), (R.sfPartnerCut, m.scoCut), (R.sfPartnerLocks, m.outLocks)] pairRegs s)) ∧
  (∀ h, s.o R.pairRole = roleStandby → own = some h →
    let agree := ∀ g, g < 12 → h.2.2.getD g 0 = m.hashes.getD g 0
    (agree → Does (.pairSample m l) s (Within [(R.pairSampleNs, s.o R.now), (R.pairMis, 0), (R.pairMisMask, 0),
      (R.sfPartner, m.sfState), (R.sfPartnerCut, m.scoCut), (R.sfPartnerLocks, m.outLocks)] pairRegs s)) ∧
    (¬ agree → Does (.pairSample m l) s fun t =>
      (s.o R.pairMis = 2 → s.o R.diagRun = 0 → t.o R.diagRun = 1 ∧ t.o R.diagOwn = 0 ∧ t.o R.diagPart = 0 ∧
        t.o R.mismatchEvents = norm R.mismatchEvents (s.o R.mismatchEvents + 1) ∧
        ∃ x ∈ t.d.sent, ∃ mask, x = .pair 4 [s.o R.pairMisAt / 500, s.o R.pairMisAt % 500, mask]) ∧
      ((s.o R.pairMis ≠ 2 ∨ s.o R.diagRun ≠ 0) → t.o R.diagRun = s.o R.diagRun ∧ t.o R.mismatchEvents = s.o R.mismatchEvents) ∧
      (∀ g, g < 12 → h.2.2.getD g 0 ≠ m.hashes.getD g 0 → bit (t.o R.pairMisMask) g = true) ∧
      Within [(R.pairSampleNs, s.o R.now), (R.pairMis, s.o R.pairMis + 1), (R.mismatchCount, s.o R.mismatchCount + 1),
        (R.pairMisFrame, s.frame), (R.pairMisAt, if s.o R.pairMis = 0 then ((m.frame * 500 + m.sample : Nat) : Int) else s.o R.pairMisAt)]
        (pairRegs ++ [(· = R.sfPartner), (· = R.sfPartnerCut), (· = R.sfPartnerLocks), (· = R.pairMisMask), (· = R.diagRun), (· = R.diagOwn),
          (· = R.diagPart), (· = R.mismatchEvents)]) s t))

/-- Pairing and joining set the roles and take over the partner's state as their rules say (R310, R311, R312). -/
def Sys2Proof.Parts.PairJoins : Prop := ∀ (s : State),
  (∀ (l : Lanes) (g : JoinSeg), s.pairHears l → s.o R.pairRole = roleSuspect → s.o R.joining = 1 → Does (.pairJoinSegment g l) s fun t =>
    (∀ vals, g = .values vals → ∀ (c : Fin 3) k v, vals.filter (fun x => decide (x.1 = c ∧ x.2.1 = k)) = [(c, k, v)] →
      (joinable c k = true → isConst k = false →
        (if c = 0 then t.o k else if c = 1 then t.a k else t.sh k) = norm k v)) ∧
    (∀ vals, g = .values vals → ∀ k, (∀ x ∈ vals, x.1 = 1 → x.2.1 = k → joinable 1 k = false) → t.a k = s.a k) ∧
    (∀ q ws o u n f, g = .queue q ws o u n f → q < 64 → s.queues.length = 64 → t.queue q = ⟨ws.take 1024, o, u, n, f⟩) ∧
    (∀ hs, g = .handovers hs → t.d.handovers = hs) ∧ (∀ r, g = .shelver r → t.d.shRes = r) ∧ t.o R.pairRole = roleSuspect) ∧
  (s.o R.pairOn = 1 → 16 ≤ s.o R.joinCnt → s.o R.incompat ≠ 1 →
    (s.o R.pairRole = roleSuspect → s.o R.joining = 1 → Does .joinComplete s (Within [(R.joinCnt, 0), (R.joinFrame, s.frame),
      (R.joining, 0), (R.roleDue, roleStandby + 1), (R.partnerRole, 1)] [fam R.regionState 5] s)) ∧
    (s.o R.pairRole = roleSolo → Does .joinComplete s (Within [(R.joinCnt, 0), (R.joinFrame, s.frame),
      (R.roleDue, roleActive + 1), (R.partnerRole, 2)] [fam R.regionState 5] s))) ∧
  (∀ id : PartnerId, s.o R.pairOn = 1 → 7 ≤ s.o R.startPhase → s.o R.pairRole = roleSolo →
    (s.fits id = true → Does (.partnerAppears id) s (Sets [(R.partnerRole, id.role), (R.partnerSerial, id.serial),
      (R.partnerImage, id.imageVer), (R.pClaim, if id.claimHigh then 1 else 0), (R.incompat, 0), (R.joinCnt, 0)] s)) ∧
    (s.fits id = false → norm R.pairAlarm (s.o R.pairAlarm) = s.o R.pairAlarm → Does (.partnerAppears id) s fun t => t.o R.incompat = 1 ∧ bit (t.o R.pairAlarm) 2 = true ∧
      t.o R.pairRole = roleSolo))

/-- Comparison of samples and joining. -/
def Obligations.PairCompareAndJoin : Prop :=
  Sys2Proof.Parts.PairSamplesAreCompared ∧ Sys2Proof.Parts.PairJoins

/-- A standby claims the gates when the partner's samples stop and its own health is good, when the selector is back
without a claim, or when its fast diagnosis passes; one that is unwell diagnoses itself first, a suspect claims
nothing, and an active unit goes on alone (R319, R320, R321). -/
def Sys2Proof.Parts.TakeoverIsClaimed : Prop := ∀ (s : State), s.o R.pairOn = 1 → s.segNamed →
  let silent := 0 ≤ s.o R.pairSampleNs ∧ 16000 ≤ s.o R.now - s.o R.pairSampleNs
  let unwell := ∃ i, 1 ≤ i ∧ i ≤ 8 ∧ bit (s.o R.health) i = true
  (silent → s.o R.pairRole = roleStandby → s.o R.diagRun ≠ 2 → ¬ unwell → Does .heartbeatLost s fun t =>
    Claims 1 s t ∧ Within [(R.partnerRole, 255)] ([(· = R.claim), (· = R.takeCause)] ++ roleRegs) s t) ∧
  (silent → s.o R.pairRole = roleStandby → s.o R.diagRun ≠ 2 → unwell → Does .heartbeatLost s
    (Within [(R.partnerRole, 255), (R.diagRun, 2), (R.diagOwn, 0), (R.pairRole, roleStandby)] roleRegs s)) ∧
  (silent → s.o R.pairRole = roleActive → Does .heartbeatLost s fun t =>
    Within [(R.partnerRole, 255), (R.roleDue, roleSolo + 1), (R.pairSampleNs, -1),
      (R.pairAlarm, withBit (s.o R.pairAlarm) 6 true)] [] s t) ∧
  (silent → s.o R.pairRole = roleSuspect → Does .heartbeatLost s
    (Sets [(R.partnerRole, 255), (R.pairSampleNs, -1), (R.joinCnt, 0)] s)) ∧
  (s.o R.pairRole = roleStandby → 2 ≤ s.o R.selHigh → s.o R.claim = 0 → Does .selFbUnexpected s fun t =>
    Claims 4 s t ∧ Within [(R.pairAlarm, withBit (s.o R.pairAlarm) 7 true)] ([(· = R.claim), (· = R.takeCause)] ++ roleRegs) s t) ∧
  (∀ pass engine, s.o R.diagRun = 2 → s.o R.diagOwn = 0 → Does (.fastDiagDone pass engine) s fun t =>
    (pass = true → s.o R.pairRole = roleStandby → Claims 1 s t) ∧
    ((pass = false ∨ s.o R.pairRole ≠ roleStandby) → t.o R.pairRole = s.o R.pairRole ∧ t.o R.claim = s.o R.claim) ∧
    (pass = false → t.o R.health = norm R.health ((s.o R.health).toNat ||| 2 : Nat)) ∧
    Within [(R.diagRun, 0), (R.diagEngine, match engine with | some x => (x.val : Int) | none => 15)]
      ([(· = R.claim), (· = R.takeCause), (· = R.health), (· = R.healthLast 1)] ++ roleRegs) s t) ∧
  (∀ pass engine, s.o R.diagRun = 1 → s.o R.diagOwn = 0 → Does (.fastDiagDone pass engine) s fun t =>
    (∃ x ∈ t.d.sent, x = .pair 5 [if pass then 0 else 1, match engine with | some x => (x.val : Int) | none => 15]) ∧
    Within [(R.diagOwn, if pass then 1 else 2), (R.diagEngine, match engine with | some x => (x.val : Int) | none => 15)]
      [(· = R.health), (· = R.healthLast 1)] s t)

/-- A takeover that the selector confirms applies what the standby received, holds the pulses under way, and is
counted with its time; an active unit that loses the selector for 4 µs gives up its claim, restarts its CA island with
every channel disabled, and becomes suspect (R316, R320, R323). -/
def Sys2Proof.Parts.TakeoverDrives : Prop := ∀ (s : State), s.Fits → s.o R.pairOn = 1 →
  (s.o R.pairRole = roleSwapping → s.o R.claim = 1 → s.o R.takeCause ≠ 0 → s.o R.selFb = 1 → 1 ≤ s.next.val → s.next.val < 500 →
    Does .takeoverDriveStart s fun t =>
      (∀ x ∈ s.d.ownRx, ∃ y ∈ t.d.stamps, y.inp = x) ∧ t.d.ownRx = [] ∧
      (∀ n, n < s.nCh → t.o (R.chHold n) = if s.modulates n then (s.shortPulses n (8000 * s.sample) : Int) else 0) ∧
      Within [(R.takeovers, s.o R.takeovers + 1), (R.takeoverNs, s.o R.now - s.o R.pairSampleNs), (R.takeoverFrame, s.frame),
        (R.pairAlarm, withBit (s.o R.pairAlarm) 1 true), (R.takeCause, 0), (R.roleDue, roleActive + 1)] [fam R.chHold 192] s t) ∧
  (s.o R.pairRole = roleActive → 2 ≤ s.o R.selLow → s.o R.pClaim = 0 →
    (s.o R.reclaimNs < 0 → Does .selFbLost s (Sets [(R.reclaimNs, s.o R.now)] s)) ∧
    (0 ≤ s.o R.reclaimNs → 4000 ≤ s.o R.now - s.o R.reclaimNs → s.segNamed → (∀ m, m < 48 → s.o (R.modConn m) ≤ 24) → Does .selFbLost s fun t =>
      t.o R.reclaimNs = -1 ∧ t.o R.claim = 0 ∧ t.o R.pairRole = roleSuspect ∧ t.o R.joining = 1 ∧ t.o R.caRun = 0 ∧ t.o R.caReset = 1 ∧
      t.o R.caResetNs = s.o R.now ∧ t.o (R.islandState iCA) = 1 ∧ t.o R.resetCause = 5 ∧ (∀ n, n < 192 → t.cs n = csDisabled) ∧
      t.d.edges = [] ∧ KeepsCopies s t))

/-- Takeover: claim and drive. -/
def Obligations.Takeover : Prop :=
  Sys2Proof.Parts.TakeoverIsClaimed ∧ Sys2Proof.Parts.TakeoverDrives

/-- A planned swap begins at its frame boundary when its conditions hold, and gives up when they do not (R326, R327,
R329). -/
def Obligations.PlannedSwaps : Prop := ∀ (s : State), s.segNamed →
  let ends (r : Int) : List (Key × Int) := [(R.swapResult, r), (R.swapWant, 0), (R.swapRun, 0), (R.swapPfb, -1)]
  (s.o R.pairOn = 1 → s.o R.pairRole = roleActive → s.a R.swapDailyS ≠ 4294967295 → s.site / 1000000000 % 86400 = s.a R.swapDailyS →
    s.o R.swapDay ≠ s.site / 86400000000000 → Does .swapDailyDue s (Sets [(R.swapDay, s.site / 86400000000000), (R.swapNs, s.o R.now),
      (R.swapWant, if s.a R.swapIdleOnly = 1 ∧ s.allIdle = false then 2 else 1)] s)) ∧
  (s.o R.pairOn = 1 → s.next.val = 0 → s.swapReady = true → s.o R.pairRole = roleActive → s.o R.swapWant = 1 →
    Does .swapExecute s fun t => (∃ x ∈ t.d.sent, x = .pair 7 [(s.frame : Int)]) ∧
      Within [(R.swapWant, 0), (R.pairRole, roleSwapping), (R.swapRun, 1)] roleRegs s t) ∧
  (s.o R.pairOn = 1 → s.next.val = 0 → s.swapReady = true → s.o R.pairRole = roleStandby →
    (s.o R.swapWant = 1 ∨ s.o R.swapPfb = (s.frame : Int)) → Does .swapExecute s (Within
      [(R.swapWant, 0), (R.pairRole, roleSwapping), (R.swapRun, 2), (R.claim, 1), (R.takeCause, 0)] roleRegs s)) ∧
  (s.o R.swapWant = 1 → 60000000 ≤ s.usSince (s.o R.swapNs) → Does .swapLapsed s
    (Effect (ends 2) id [word s R.pairEventQueue 0xB5 255 2] s)) ∧
  (s.o R.pairRole = roleSwapping → 10 ≤ s.sample → s.o R.swapRun = 2 → s.o R.selFb ≠ 1 → Does .swapClaimFailed s
    (Within (ends 3 ++ [(R.pairRole, roleSuspect), (R.claim, 0), (R.joining, 0), (R.gatesLow, 0)]) roleRegs s)) ∧
  (s.o R.pairRole = roleSwapping → 10 ≤ s.sample → s.o R.swapRun = 1 → s.o R.selFb = 1 → s.o R.pClaim = 0 → Does .swapClaimFailed s
    (Within (ends 3 ++ [(R.pairRole, roleActive), (R.partnerRole, 4)]) roleRegs s)) ∧
  (∀ u : State, u.o R.pairRole = roleSwapping → u.o R.swapRun ≠ 0 → u.segNamed → let t := rolePfb.run u
    (u.o R.selFb = 1 → t.o R.pairRole = roleActive) ∧
    (u.o R.selFb ≠ 1 → u.o R.claim = 0 → t.o R.pairRole = roleStandby) ∧
    (u.o R.swapRun = 2 → u.o R.selFb = 1 → t.o R.swapResult = 1 ∧ t.o R.swaps = norm R.swaps (u.o R.swaps + 1) ∧ t.o R.partnerRole = 2 ∧
      t.o R.ownSwap = 1) ∧
    (u.o R.swapRun = 1 → u.o R.selFb ≠ 1 → u.o R.claim = 0 → t.o R.swapResult = 1 ∧ t.o R.partnerRole = 1) ∧
    (u.o R.selFb ≠ 1 → u.o R.claim ≠ 0 → t.o R.pairRole = roleSwapping ∧ t.o R.swapRun = u.o R.swapRun))

/-- Each safety input, insulation, hot spot, die and over-voltage demand is held until the next safety cycle; a test
pulse or a discrepancy makes its fault on the inputs concerned and on no other (R333, R334, R335, R336). -/
def Sys2Proof.Parts.SafetyDemandsAreHeld : Prop := ∀ (s : State), s.sfRuns = true →
  (∀ i : Fin 16, s.siFn i ≠ 0 → Does (.safetyDemand (.input i)) s fun t =>
    t.o (R.siState i) = norm (R.siState i) (if s.o (R.siFault i) ≠ 0 then s.o (R.siFault i) else 2) ∧
    Within [(R.siDem i, 1), (R.siHigh i, 0), (R.siNew i, 1)] [fam R.siState 16] s t) ∧
  (∀ k : Out, s.insulationLow k = true → 0 ≤ s.o (R.sfImdNs k) → s.a (R.imdFiltUs k) ≤ s.usSince (s.o (R.sfImdNs k)) →
    Does (.safetyDemand (.insulation k)) s (Sets [(R.imdDem k, 1)] s)) ∧
  (∀ k : Out, s.o (R.hotReq k) = 1 → s.a (R.hotspotEn k) = 1 → Does (.safetyDemand (.hotspot k)) s (Sets [(R.hotDem k, 1)] s)) ∧
  (s.o R.dieReq = 1 → Does (.safetyDemand .dieOverTemp) s (Sets [(R.dieDem, 1)] s)) ∧
  (∀ k : Out, 0 < s.o (R.sfOvCnt k) → s.a (R.ovFiltUs k) ≤ 2 * s.o (R.sfOvCnt k) → Does (.ovDemand k) s (Sets [(R.ovDem k, 1)] s)) ∧
  (∀ (p : Fin 4) (high : Nat), (s.o (R.tpNs p) < 0 ∨ s.a R.tpPeriodUs ≤ s.usSince (s.o (R.tpNs p))) → Does (.testPulse p high) s fun t =>
    (∀ i, i < 16 → s.siFn i ≠ 0 → s.a (R.siTp i) = (p.val : Int) → high.testBit i = true → FaultOf i 3 s t) ∧
    (∀ i, i < 16 → (s.siFn i = 0 ∨ s.a (R.siTp i) ≠ (p.val : Int) ∨ high.testBit i = false) → t.o (R.siFault i) = s.o (R.siFault i)) ∧
    Within [(R.tpNs p, s.o R.now)] inputRegs s t) ∧
  (∀ i : Fin 16, i.val % 2 = 0 → s.a (R.siPair i) = 1 → s.siFn i ≠ 0 → s.siDemands i ≠ s.siDemands (i.val + 1) →
    Does (.discrepancyFault i) s fun t => FaultOf i 4 s t ∧ FaultOf (i.val + 1) 4 s t ∧
      (∀ j, j < 16 → j ≠ i.val → j ≠ i.val + 1 → t.o (R.siFault j) = s.o (R.siFault j)) ∧ Within [] inputRegs s t)

/-- The insulation monitor's signal is classified by period and duty, and a class shows when two readings agree
(R337). -/
def Sys2Proof.Parts.InsulationIsClassified : Prop := ∀ (s : State) (k : Out), s.injects (72 + k) = false →
  (∀ period high, s.a (R.imdMode k) = 1 → s.os k ≠ osIso → Does (.imdClassify k period high) s
    (Sets [(R.imdState k, 1), (R.imdR k, if high = 0 then 0 else 4294967295)] s)) ∧
  (∀ period high, s.a (R.imdMode k) ≠ 0 → s.a (R.imdMode k) ≠ 1 → s.os k ≠ osIso →
    let c := imdClass period high
    (s.o (R.imdLast k) ≠ c → Does (.imdClassify k period high) s (Sets [(R.imdLast k, c)] s)) ∧
    (s.o (R.imdLast k) = c → c = 2 → Does (.imdClassify k period high) s (Sets [(R.imdLast k, c), (R.imdState k, 2)] s)) ∧
    (s.o (R.imdLast k) = c → c ≠ 2 → Does (.imdClassify k period high) s (Sets [(R.imdLast k, c), (R.imdState k, c),
      (R.imdR k, if c = 1 then (imdOhms period high : Int) else 0)] s))) ∧
  (s.a (R.imdMode k) = 2 → s.os k ≠ osIso → Does (.imdNoEdge k) s (Sets [(R.imdLast k, 4), (R.imdState k, 4), (R.imdR k, 0)] s)) ∧
  (s.a (R.imdMode k) = 2 → s.os k = osIso → s.Fits → Does (.imdNoEdge k) s (Within [(R.imdLast k, 4), (R.imdState k, 4), (R.imdR k, 0)]
    (sessionRegs ++ latchRegs) s)) ∧
  (∀ period high, s.a (R.imdMode k) ≠ 0 → s.os k = osIso → s.Fits → Does (.imdClassify k period high) s fun t =>
    Within [] ([(· = R.imdLast k), (· = R.imdState k), (· = R.imdR k)] ++ sessionRegs ++ latchRegs) s t)

/-- Safety demands are held; insulation is classified. -/
def Obligations.SafetyDemands : Prop :=
  Sys2Proof.Parts.SafetyDemandsAreHeld ∧ Sys2Proof.Parts.InsulationIsClassified

/-- A safety cycle latches a trip, with the end of the sessions, for every held demand on the outputs that the demand
names; no latch is lost by it, and it keeps the role, the input faults and every copy (R333, R343, R347). -/
def Sys2Proof.Parts.SafetyCycleTrips : Prop := ∀ (s : State) (safeIn scoRead : Nat), s.Fits → s.sfRuns = true →
  (s.o R.sfCycNs < 0 ∨ s.o R.tCycUs ≤ s.usSince (s.o R.sfCycNs)) → s.injects (s.o R.injRunning).toNat = false →
  Does (.sfCycle safeIn scoRead) s fun t =>
    (∀ k, k < 24 → s.o (R.ovDem k) = 1 → Latched k 3 t ∧ bit (t.o R.sfEnd) k = true) ∧
    (∀ k, k < 24 → s.o (R.imdDem k) = 1 → Latched k 4 t ∧ bit (t.o R.sfEnd) k = true) ∧
    (∀ k, k < 24 → s.o (R.hotDem k) = 1 → Latched k 5 t ∧ bit (t.o R.sfEnd) k = true) ∧
    (s.o R.dieDem = 1 → Latched 255 6 t ∧ ∀ k, k < 24 → bit (t.o R.sfEnd) k = true) ∧
    (∀ i, i < 16 → s.siDemands i = true → s.siFn i = 1 → Latched 255 0 t ∧
      (s.o (R.siNew i) = 1 → ∀ k, k < 24 → bit (t.o R.sfEnd) k = true)) ∧
    (∀ i k, i < 16 → k < 24 → s.siDemands i = true → s.siFn i = 2 → bit (s.a (R.siOutMask (s.siGov i))) k = true →
      Latched k 1 t ∧ (s.o (R.siNew i) = 1 → bit (t.o R.sfEnd) k = true)) ∧
    (∀ k, k < 24 → t.o (R.ovDem k) = (if s.o (R.ovDem k) = 1 then 0 else s.o (R.ovDem k))) ∧
    (∀ i, i < 16 → t.o (R.siNew i) = 0 ∧ t.o (R.siFault i) = s.o (R.siFault i) ∧
      t.o (R.siDem i) = (if safeIn.testBit i then 0 else s.o (R.siDem i))) ∧
    (∀ l ∈ s.d.latches, ∃ l' ∈ t.d.latches, l'.out = l.out ∧ l'.cause = l.cause ∧ l'.lock = l.lock) ∧
    t.o R.pairRole = s.o R.pairRole ∧ t.o R.scoRead = (scoRead % 256 : Nat) ∧ t.o R.sfCycNs = s.o R.now ∧ KeepsCopies s t

/-- A diagnostic fault trips the site and is final; SAFE_RESET re-arms only what was latched before its edge and whose
cause has gone (R339, R340, R342, R345). -/
def Sys2Proof.Parts.SafetyFaultsAndReArming : Prop := ∀ (s : State),
  (∀ code, 1 ≤ code → code ≤ 7 → s.o R.sfState = 3 → Does (.sfDiagFault code) s (Sets [] s)) ∧
  (∀ code, 1 ≤ code → code ≤ 7 → s.o R.sfState ≠ 3 → s.drives = true → Does (.sfDiagFault code) s fun t =>
    Latched 255 7 t ∧ (∀ k, k < 24 → bit (t.o R.sfEnd) k = true) ∧
    Within [(R.sfFaultCode, code), (R.sfState, 3), (R.islandState iSF, 5)] ((· = R.sfEnd) :: latchRegs) s t) ∧
  (∀ code, 1 ≤ code → code ≤ 7 → s.o R.sfState ≠ 3 → s.drives = false →
    (s.o R.stocktakeState = 3 → (s.o R.segIsland).toNat < 16) → Does (.sfDiagFault code) s fun t =>
    t.d.latches = s.d.latches ∧
    Within [(R.sfFaultCode, code), (R.sfState, 3), (R.islandState iSF, 5), (R.pairRole, roleSuspect)]
      ([(· = R.segEndFrame), (· = R.segIsland), (· = R.segPartition), fam R.stResult 16, (· = R.stocktakeState)] ++ latchRegs) s t) ∧
  (0 ≤ s.o R.sfDiffNs → 1000000 ≤ s.usSince (s.o R.sfDiffNs) → Does .sfDisagree s (Sets [(R.sfDisagree, 1)] s)) ∧
  (s.o R.resetState ≠ 2 → Does .safeResetTooLong s (Effect [(R.resetState, 2)] id [word s R.sfEventQueue 0xC2 255 2] s)) ∧
  (∀ lowUs highUs : Nat, s.sfRuns = true →
    ((2000000 < highUs ∨ s.o R.resetState = 2 ∧ lowUs < 100000) → Does (.safeReset lowUs highUs) s (Sets [] s)) ∧
    (highUs ≤ 2000000 → (lowUs < 100000 ∧ s.o R.resetState ≠ 2 ∨ 100000 ≤ lowUs ∧ highUs < 100000) → Does (.safeReset lowUs highUs) s
      (Effect [(R.resetState, 0)] id [word s R.sfEventQueue 0xC2 255 1] s)) ∧
    (100000 ≤ lowUs → 100000 ≤ highUs → highUs ≤ 2000000 → (∀ l ∈ s.d.latches, l.lock = 1 → l.out < 24) → Does (.safeReset lowUs highUs) s fun t =>
      let rise := s.o R.now - highUs * 1000
      (∀ l ∈ t.d.latches, l ∈ s.d.latches) ∧
      (∀ l ∈ s.d.latches, (rise ≤ l.since ∨ l.lock = 0 ∧ l.cause = 7) → l ∈ t.d.latches) ∧
      (∀ l ∈ s.d.latches, l.since < rise → l.lock = 0 → l.cause = 6 → s.o R.dieReq ≠ 1 → l ∉ t.d.latches) ∧
      (∀ i, i < 16 → s.o (R.siFault i) ≠ 0 → s.o (R.siFaultNs i) < rise →
        (∀ j ∈ s.siMembers (s.siGov i), s.o (R.siHigh j) = 1) → t.o (R.siFault i) = 0) ∧
      (∀ i, i < 16 → (rise ≤ s.o (R.siFaultNs i) ∨ ∃ j ∈ s.siMembers (s.siGov i), s.o (R.siHigh j) ≠ 1) →
        t.o (R.siFault i) = s.o (R.siFault i)) ∧
      t.o R.sfState = (if t.d.latches.any (fun l => decide (l.out = 255)) then 2 else 1) ∧ t.o R.sfEnd = s.o R.sfEnd ∧
      Within [(R.resetState, 0)] ([fam R.expStuck 128, fam R.siFault 16, fam R.siState 16] ++ latchRegs) s t))

/-- Safety cycles trip; faults are final; re-arming. -/
def Obligations.SafetyTrips : Prop :=
  Sys2Proof.Parts.SafetyCycleTrips ∧ Sys2Proof.Parts.SafetyFaultsAndReArming

/-- A vault command ends with its result: an import that does not open or a stage that does not verify changes no slot
(R354, R357). -/
def Sys2Proof.Parts.VaultCommandsEnd : Prop := ∀ s : State, s.o R.vaultRun ≠ 0 → (s.o R.vaultRun ≠ 5 ∨ 2 ≤ s.o R.vaultPhase) →
  s.o R.vrSlot < 256 →
  let n := (s.o R.vrSlot).toNat
  let run := (s.o R.vaultRun).toNat
  Does .vaultCommandDone s (fun t => t.o R.vaultRun = 0 ∧ KeepsCopies s t) ∧
  (∀ cls, (run = 2 ∧ cls = 0 ∨ run = 10 ∧ cls = 1) →
    Does .vaultCommandDone s fun t =>
      Config.importOpens (s.o R.serial).toNat cls n (s.o R.vrAttr).toNat (s.o R.vrType).toNat s.vrBytes = none →
      Sets [(R.vaultResult, 3), (R.vaultRun, 0)] s t) ∧
  (run = 3 → Does .vaultCommandDone s fun t => if s.stageVerifies n
    then Sets [(if s.o R.vaultBlob = 1 then R.blobStage n else R.stageState n, 3), (R.vaultResult, 1), (R.vaultRun, 0)] s t
    else Sets [(R.vaultResult, 2), (R.vaultRun, 0)] s t) ∧
  (run = 4 → Does .vaultCommandDone s (Sets [(R.vsStCert n, ofLe s.vrBytes), (R.vaultResult, 1), (R.vaultRun, 0)] s)) ∧
  (run = 5 → Does .vaultCommandDone s (Sets [(R.vaultResult, if s.o R.vaultPhase = 2 then 1 else if s.o R.vaultPhase = 4 then 4 else 2),
    (R.vaultRun, 0)] s))

/-- A tamper event, and a spell without supervision that is reported late, leave no key in any vault slot (R67, R361).
-/
def Sys2Proof.Parts.TamperLeavesNoKey : Prop := ∀ s : State,
  (s.lc = 1 → s.o R.aoLost ≠ 1 → Does .tamperBreach s (Sets [(R.tamperEvents, s.o R.tamperEvents + 1)] s)) ∧
  (s.Fits → 2 ≤ s.lc → s.lc ≤ 4 → s.o R.aoLost ≠ 1 → Does .tamperBreach s fun t =>
    (∀ n, n < 256 → s.o (R.slotState n) ≠ 0 → t.o (R.slotState n) = 2 ∧ t.o (R.vsKey n) = 0) ∧
    (∀ n, n < 256 → s.o (R.slotState n) = 0 → t.o (R.slotState n) = 0) ∧
    (∀ b, b < 16 → s.o (R.blobState b) ≠ 0 → t.o (R.blobState b) = 2 ∧ t.o (R.vbKey b) = 0) ∧
    t.o R.keyState = 1 ∧ t.lc = 5 ∧
    Within [(R.tamperEvents, s.o R.tamperEvents + 1), (R.dusGone, 1), (R.lcState, 5), (R.debugState, 0), (R.vaultState, 2), (R.vaultRun, 0),
      (R.lcDue, 0)] ([fam R.slotState 256, fam R.vsKey 256, fam R.blobState 16, fam R.vbKey 16, (· = R.keyState), (· = R.pubkey),
        (· = R.keyId)] ++ meterShown) s t)

/-- Vault commands end; tamper leaves no key. -/
def Obligations.VaultEndsAndTamper : Prop :=
  Sys2Proof.Parts.VaultCommandsEnd ∧ Sys2Proof.Parts.TamperLeavesNoKey

/-- A folio is written to the bank that is not in force, so that a cut or a failed write leaves the folio in force as
it was; only a completed write puts the new values in force; no other folio changes (R362, R363, R366, R367). -/
def Obligations.FoliosSurviveACut : Prop := ∀ (s : State) (r : Fin 7) (f : Nat),
  (∀ j rest, s.d.folioJobs = j :: rest → j.region = r → j.folio = f → (∀ x ∈ s.d.folioJobs, x.running = false) →
    (s.folioSupply = true → Does (.folioWrite r f) s fun t =>
      (t.folio r f).pick = (s.folio r f).pick ∧ (∃ j' , t.folioJob r f = some j' ∧ j'.running = true ∧ j'.vals = j.vals ∧
        AwayFromForce (t.folio r f) j'.onB) ∧
      (∀ r' f', ¬ (r' = r.val ∧ f' = f) → t.folio r' f' = s.folio r' f') ∧ Within [] [] s t) ∧
    (s.folioSupply = false → f < 256 → Does (.folioWrite r f) s fun t =>
      t.d.folios = s.d.folios ∧ t.o R.folioDeferred = norm R.folioDeferred (s.o R.folioDeferred + 1))) ∧
  (∀ j, s.folioJob r f = some j → j.running = true → s.injectsArg 162 (r * 4096 + f) = false → AwayFromForce (s.folio r f) j.onB →
    (∀ b isB, (s.folio r f).pick = some (b, isB) → b.seq < 4294967296) → f < 4096 →
    Does (.folioWriteComplete r f true) s fun t =>
      (∃ seq, (t.folio r f).pick = some (⟨1, seq, j.vals, j.keyed⟩, j.onB)) ∧
      (∀ r' f', ¬ (r' = r.val ∧ f' = f) → t.folio r' f' = s.folio r' f') ∧
      t.o R.folioWrites = norm R.folioWrites (s.o R.folioWrites + 1)) ∧
  (∀ j, s.folioJob r f = some j → j.running = true → Does (.folioWriteComplete r f false) s fun t =>
    t.d.folios = s.d.folios ∧
    (j.again = false → (∃ j', t.folioJob r f = some j' ∧ j'.again = true ∧ j'.vals = j.vals) ∧ t.o R.writeFails = s.o R.writeFails) ∧
    (j.again = true → t.o R.writeFails = norm R.writeFails (s.o R.writeFails + 1) ∧ t.o (R.regionState r) = 3))

/-- A stocktake run of an island shows its signature, its time and its result; a wrong signature leaves the island in
FAULT; the stocktake ends with its last island (R378, R381). -/
def Sys2Proof.Parts.StocktakeRunsEnd : Prop := ∀ (s : State) (i : Isl) (sig : Nat), s.Fits → (∀ m, m < 48 → s.o (R.modConn m) ≤ 24) →
  s.o R.stocktakeState = 2 → s.island i = 4 → bit (s.o R.stMask) i = true →
  let pass := ((sig % 2 ^ 64 : Nat) : Int) = s.o (R.stSigExpect i)
  let last := ∀ j, j < 12 → j ≠ i.val → bit (s.o R.stMask) j = false
  Does (.stocktakeRunEnd i sig) s fun t =>
    t.o (R.stSig i) = (sig % 2 ^ 64 : Nat) ∧ t.o (R.stFrame i) = norm (R.stFrame i) s.frame ∧
    t.o (R.stRunUs i) = norm (R.stRunUs i) (s.usSince (s.o R.stRunNs)) ∧
    (pass → t.o (R.stResult i) = 1 ∧ t.island i = (if i = iSF ∨ i = iAO ∨ i = iFP then 2 else 1)) ∧
    (¬ pass → t.o (R.stResult i) = 2 ∧ t.island i = 5) ∧
    (last → t.o R.stocktakeState = 0) ∧ (¬ last → t.o R.stocktakeState = 2 ∧ ∃ j, j < 12 ∧ bit (s.o R.stMask) j = true ∧ t.island j = 4) ∧
    (∀ j, j < 12 → bit (t.o R.stMask) j = (bit (s.o R.stMask) j && decide (j ≠ i.val))) ∧ KeepsCopies s t

/-- The standby's test segments run one at a time, and the rotation visits each of its 94 places once before it begins
again (R385, R386). -/
def Sys2Proof.Parts.SegmentsRotate : Prop := ∀ (s : State),
  (s.next.val = 0 → s.o R.pairRole = roleStandby → s.stocktaking = false → s.injecting = false →
    (s.o R.segEndFrame < 0 ∨ s.a R.segSpacingFrames ≤ ((s.frame : Int) - s.o R.segEndFrame) % 4294967296) →
    Does .segmentStart s (Sets [(R.stocktakeState, 3), (R.segIsland, s.o R.segNextI), (R.segPartition, s.o R.segNextP)] s)) ∧
  (s.o R.stocktakeState = 3 →
    let i := (s.o R.segIsland).toNat
    let p := (s.o R.segPartition).toNat
    let next := nextPartition i p
    let common : List (Key × Int) := [(R.stocktakeState, 0), (R.segEndFrame, s.frame), (R.segIsland, 255), (R.segPartition, 0),
      (R.segNextI, next.1.1), (R.segNextP, next.1.2)]
    let turned (t : State) : Prop := t.o R.rotations = if next.2 then norm R.rotations (s.o R.rotations + 1) else s.o R.rotations
    Does (.segmentEnd true) s (fun t => turned t ∧
      Within (common ++ [(R.segmentsPassed, s.o R.segmentsPassed + 1)]) [(· = R.rotations)] s t) ∧
    Does (.segmentEnd false) s (fun t => turned t ∧
      Within (common ++ [(R.segFails, s.o R.segFails + 1), (R.segLastFail, (i * 256 + p : Nat)), (R.healthLast 5, s.frame),
        (R.health, ((s.o R.health).toNat ||| 32 : Nat))]) [(· = R.rotations)] s t)) ∧
  (s.o R.stocktakeState = 3 → s.o R.segIsland < 16 → (s.o R.pairRole ≠ roleStandby ∨ s.o R.claim = 1 ∨
      0 ≤ s.o R.pairSampleNs ∧ 16000 ≤ s.o R.now - s.o R.pairSampleNs) →
    Does .segmentAbandon s (Sets [(R.stocktakeState, 0), (R.stResult (s.o R.segIsland).toNat, 3), (R.segEndFrame, s.frame),
      (R.segIsland, 255), (R.segPartition, 0)] s)) ∧
  (∀ n, n < 94 → let at' (m : Nat) := (List.range m).foldl (fun (x : Nat × Nat) _ => (nextPartition x.1 x.2).1) (0, 0)
    at' 94 = (0, 0) ∧ ∀ m, m < n → at' m ≠ at' n)

/-- An injection ends by its hold time or its permit, with its state and response time, and the permit ends with it
(R387, R390). -/
def Sys2Proof.Parts.InjectionsEnd : Prop := ∀ (s : State),
  let d := (s.o R.injRunning).toNat
  let how (st : Int) : List (Key × Int) := [(R.injState d, st), (R.injRunning, 255), (R.injMask, 0),
    (R.injResponseUs d, if s.o (R.injReaction d) = 1 then s.o (R.injResponseUs d) else 4294967295)]
  let told (st : Nat) := word s R.stEventQueue 0xD4 d (st * 256 + (s.o (R.injReaction d)).toNat)
  let permit : List (Key × Int) := [(R.permitEnd, -1), (R.permitMask, 0), (R.injPermitState, 3)]
  (s.o R.injRunning < 179 → norm (R.injResponseUs d) (s.o (R.injResponseUs d)) = s.o (R.injResponseUs d) →
    (s.o (R.injHoldUs d) ≤ s.usSince (s.o R.injNs) → Does .injectionHoldEnd s (Effect (how 2) id [told 2] s)) ∧
    (0 ≤ s.o R.permitEnd → s.o R.permitEnd ≤ s.o R.now → Does .permitExpiry s
      (Effect (how 4 ++ permit) id [told 4, word s R.stEventQueue 0xD5 255 3] s))) ∧
  (s.o R.injRunning = 255 → 0 ≤ s.o R.permitEnd → s.o R.permitEnd ≤ s.o R.now → Does .permitExpiry s
    (Effect permit id [word s R.stEventQueue 0xD5 255 3] s))

/-- The scrub corrects and counts single errors, poisons exactly the word that is uncorrectable (R371); a telemetry
record holds the objects chosen (R377). -/
def Sys2Proof.Parts.ScrubsAndRecords : Prop := ∀ s : State,
  ((s.o R.scrubFrame < 0 ∨ 1000 ≤ ((s.frame : Int) - s.o R.scrubFrame) % 4294967296) → s.injects 161 = false →
    Does (.queueScrub []) s (Sets [(R.scrubFrame, s.frame)] s) ∧
    (∀ q pos, q < 64 → pos < (s.queue q).words.length → s.queues.length = 64 → s.o R.pairRole = 0 → s.d.raised = [] →
      Does (.queueScrub [(q, pos, true)]) s fun t =>
        (t.queue q).uncorr = true ∧ (t.queue q).words.length = (s.queue q).words.length ∧
        (t.queue q).words[pos]? = some 0xFEFEFEFEFEFEFEFE ∧
        (∀ i, i ≠ pos → (t.queue q).words[i]? = (s.queue q).words[i]?) ∧ (∀ q', q' ≠ q → t.queue q' = s.queue q') ∧
        Within [(R.scrubFrame, s.frame), (R.qUncorrCount q, s.o (R.qUncorrCount q) + 1), (R.healthLast 4, s.frame),
          (R.health, ((s.o R.health).toNat ||| 16 : Nat))] [] s t) ∧
    (∀ q pos, q < 64 → pos < (s.queue q).words.length → Does (.queueScrub [(q, pos, false)]) s
      (Sets [(R.scrubFrame, s.frame), (R.qEccCorr q, s.o (R.qEccCorr q) + 1), (R.eccCorrected, s.o R.eccCorrected + 1),
        (R.healthLast 3, s.frame), (R.health, ((s.o R.health).toNat ||| 8 : Nat))] s))) ∧
  (let objs := ((upTo 8).map fun j => s.a (R.tlmObj j)).filter (· != 0)
   s.next.val = 0 → (s.frame : Int) % (pos (s.a R.tlmPeriod)) = 0 → s.o R.tlmFrame ≠ (s.frame : Int) → objs ≠ [] →
    Does .telemetryRecord s (Effect [(R.tlmFrame, s.frame)] id
      [(R.tlmQueue, (14 * 2 ^ 60 + objs.length * 2 ^ 56 + s.frame) :: objs.map s.tlmWord)] s))

/-- Stocktake runs, test segments, injections, scrubs and records. -/
def Obligations.SelfTests : Prop :=
  Sys2Proof.Parts.StocktakeRunsEnd ∧ Sys2Proof.Parts.SegmentsRotate ∧ Sys2Proof.Parts.InjectionsEnd ∧ Sys2Proof.Parts.ScrubsAndRecords

/-- A full reset leaves every register at its reset value but those that are kept, empties the queues and whatever
waits, and keeps the energy registers, the ledger, the folios and the images; a loss of always-on power is noted; a
reset of the metrology die keeps every energy register (R65, R66, R67, R77, R339). -/
def Sys2Proof.Parts.FullResets : Prop := ∀ s : State, s.Fits → s.queues.length = 64 →
  (∀ c : Fin 5, (c.val = 4 → s.next.val = 0 ∧ s.o R.resetNow = 0x504F) → (c.val = 0 → s.o R.startPhase = 1) →
    Does (.powerOnReset c) s (FullyReset c s)) ∧
  (s.o R.startPhase ≠ 0 → Does .oscCrossCheckFail s (FullyReset 3 s)) ∧
  (s.o R.startPhase = 1 → s.o R.aoLost ≠ 1 → Does .aoPowerLoss s (Sets [(R.aoLost, 1), (R.aoLostNs, s.site), (R.rtcValid, 0)] s)) ∧
  (s.o R.mtState ≠ 1 → Does .metrologyDieReset s fun t =>
    (∀ k, k < 24 → s.o (R.dcSessState k) = 0 → t.o (R.dcSessState k) = 0) ∧
    (∀ q, q < 26 → t.imported q = s.imported q ∧ t.exported q = s.exported q) ∧
    Within [(R.mtState, 1), (R.islandState iMT, 1)] ([fam R.mSumP 26, fam R.mN 26, fam R.mOver 26, (· = R.zcArmed), (· = R.zcPend),
      (· = R.zcDet), (· = R.zcTick), (· = R.zcCounted), (· = R.mtTickN), (· = R.mtLatchDue)] ++ meterShown) s t)

/-- A reset of the AP island moves its own registers only and ends every transaction and association; a CA reset
leaves every channel disabled, no edge, and gives up an active role; a domain that starts runs its island where its
self-test passes and leaves it in FAULT where not (R71, R76, R77, R381). -/
def Sys2Proof.Parts.IslandRestarts : Prop := ∀ s : State, 7 ≤ s.o R.startPhase →
  (∀ req : Bool, (req = true → s.next.val = 0 ∧ s.o R.resetNow = 0x4150) → (req = false → s.o R.apDown ≠ 1) → Does (.apReset req) s
    (Effect [(R.apDown, 1), (R.apNs, s.o R.now), (R.islandState iAP, 1), (R.resetCause, if req then 8 else 7), (R.resetNow, 0)]
      (fun d => { d with txns := [], assocs := [] }) [] s)) ∧
  (∀ req : Bool, (req = true → s.next.val = 0 ∧ s.o R.resetNow = 0x4341) →
    (req = false → s.island iCA = 5 ∧ bit (s.o R.stFailMask) iCA = false) → s.Fits → s.segNamed → (∀ m, m < 48 → s.o (R.modConn m) ≤ 24) →
    Does (.caReset req) s fun t =>
      (∀ n, n < 192 → t.cs n = csDisabled) ∧ t.d.edges = [] ∧ t.o R.caRun = 0 ∧ t.o R.caReset = 1 ∧ t.o R.caResetNs = s.o R.now ∧
      t.o (R.islandState iCA) = 1 ∧ t.o R.resetCause = (if req then 6 else 5) ∧ t.o R.resetNow = 0 ∧
      ((s.o R.pairRole = roleActive ∨ s.o R.pairRole = roleSwapping) → t.o R.claim = 0 ∧ t.o R.pairRole = roleSuspect ∧ t.o R.joining = 1) ∧
      (s.o R.pairRole = roleStandby → t.o R.pairRole = roleSuspect ∧ t.o R.joining = 1 ∧ t.o R.claim = s.o R.claim) ∧
      (s.o R.pairRole = roleSolo → t.o R.pairRole = roleSolo ∧
        ∀ k, k < s.nOut → energised (s.os k) = true → t.o (R.outLim k) = 0 ∧ t.o (R.outZeroNs k) = s.o R.now) ∧
      KeepsCopies s t) ∧
  (∀ (d : Fin 13) (i : Nat), bit (s.o R.domainState) d = true → d.val ≠ 5 → domIsland d = some i → s.island i = 1 →
    (Does (.domainStarted d false) s (Sets [(R.stResult i, 2), (R.stFailMask, withBit (s.o R.stFailMask) i true), (R.islandState i, 5)] s)) ∧
    (i ≠ iCA → i ≠ iAP → s.o R.apDown ≠ 1 → s.o R.caReset ≠ 1 → Does (.domainStarted d true) s
      (Sets [(R.stResult i, 1), (R.stFailMask, withBit (s.o R.stFailMask) i false), (R.islandState i, 2)] s)) ∧
    (i ≠ iCA → i ≠ iAP → (s.o R.apDown = 1 ∨ s.o R.caReset = 1) → Does (.domainStarted d true) s (Sets [(R.islandState i, 2)] s)) ∧
    (i = iAP → Does (.domainStarted d true) s fun t => t.o R.apDown = 0 ∧ t.o (R.islandState iAP) = 2 ∧ t.o R.caRun = s.o R.caRun) ∧
    (i = iCA → Does (.domainStarted d true) s fun t => t.o R.caRun = 1 ∧ t.o R.caReset = 0 ∧ t.o (R.islandState iCA) = 2 ∧
      t.o R.apDown = s.o R.apDown))

/-- Full resets and restarts of one island. -/
def Obligations.Resets : Prop :=
  Sys2Proof.Parts.FullResets ∧ Sys2Proof.Parts.IslandRestarts

/-- Start-up begins at sample 0; a wrong self-test signature leaves it at the pair's negotiation with the failed
island marked, and no image to boot leaves it at phase 2; where it halts the unit stays SOLO and claims the gates
unless its partner does (R73, R311). -/
def Sys2Proof.Parts.StartsUp : Prop := ∀ s : State,
  (∀ env, s.o R.startPhase = 1 → Does (.startUp env) s fun t => t.next.val = 0 ∧
    ((∃ i ∈ [iCA, iPL, iSF, iMT], ∃ x, env.badSigs.find? (fun x => decide (x.1.val = i)) = some x ∧
        ((x.2 % 2 ^ 64 : Nat) : Int) ≠ s.o (R.stSigExpect i) ∧ 0 ≤ s.o (R.stSigExpect i)) → t.o R.bootImage ≠ 0 →
      t.o R.startPhase = 6 ∧ ∃ i ∈ [iCA, iPL, iSF, iMT], bit (t.o R.stFailMask) i = true ∧ t.o (R.stResult i) = 2) ∧
    (t.o R.bootImage = 0 → t.o R.startPhase = 2)) ∧
  (∀ env, s.o R.startPhase = 6 → s.d.startEnv = some env → Does .pairNegotiationTimeout s fun t =>
    t.next = s.next ∧ t.pending = s.pending ∧
    (s.startHalts = true → t.d.startEnv = none ∧ t.o R.startPhase = 6 ∧ t.o R.pairRole = roleSolo ∧ t.o R.now = s.o R.now + 2000000000 ∧
      t.o R.claim = (if env.partnerClaim ∨ s.o R.pairOn ≠ 1 then s.o R.claim else 1)))

/-- After a reset, contacts that were found closed are opened when their current is low, and those that stay closed
take their module out of service or their output to FAULT (R79). -/
def Sys2Proof.Parts.ReconcilesContactors : Prop := ∀ s : State, s.Fits →
  (∀ m : Pm, s.o (R.reconSel m) = 1 → 0 ≤ s.o (R.lowNs m) → 10000 ≤ s.usSince (s.o (R.lowNs m)) →
    0 ≤ s.o (R.expCmd (selExp m)) → s.o (R.expCmd (selExp m)) ≤ 65535 → Does (.reconcileOpen (.module m)) s fun t =>
      (∀ i ∈ s.closedSelectors m, t.coilOn (selExp m) (selCoil m i) = false) ∧
      (∀ i, i < 16 → (∀ j ∈ s.closedSelectors m, i ≠ selCoil m j) → t.coilOn (selExp m) i = s.coilOn (selExp m) i) ∧
      Within [(R.reconSel m, 2), (R.unkNs m, s.o R.now), (R.reconcileState, 2)] (coilRegs (selExp m)) s t) ∧
  (∀ k : Out, s.o (R.outFound k) = 1 → s.quiet10 k = true → 0 ≤ s.o (R.expCmd (outExp k)) → s.o (R.expCmd (outExp k)) ≤ 65535 →
    Does (.reconcileOpen (.output k)) s fun t => (∀ c, c < 3 → t.coilOn (outExp k) (outCoil k c) = false) ∧
      Within [(R.outFound k, 2), (R.outFoundNs k, s.o R.now), (R.reconcileState, 2)] (coilRegs (outExp k)) s t) ∧
  (∀ m : Pm, (s.o (R.reconSel m) = 1 ∧ 0 ≤ s.o (R.highNs m) ∧ 100000 ≤ s.usSince (s.o (R.highNs m)) ∨
      s.o (R.reconSel m) = 2 ∧ s.selectorsOpen2 m = false ∧ 20000 ≤ s.usSince (s.o (R.unkNs m))) →
    (∀ j, j < 48 → s.o (R.modConn j) ≤ 24) → Does (.reconcileStuck (.module m)) s fun t =>
      t.o (R.quarCause m) = 5 ∧ t.o (R.quarNs m) = s.o R.now ∧ (∀ n ∈ legs m, t.cs n ≠ csClosed) ∧
      Within [(R.reconSel m, 0), (R.stuckCount, s.o R.stuckCount + 1)] quarRegs s t) ∧
  (∀ k : Out, (s.o (R.outFound k) = 1 ∧ 0 ≤ s.o (R.outHighNs k) ∧ 100000 ≤ s.usSince (s.o (R.outHighNs k)) ∨
      s.o (R.outFound k) = 2 ∧ s.contactorsOpen2 k = false ∧ 20000 ≤ s.usSince (s.o (R.outFoundNs k))) →
    Does (.reconcileStuck (.output k)) s fun t =>
      t.os k = osFault ∧ t.o (R.outEndCause k) = 8 ∧ (∀ j, j < 24 → j ≠ k.val → t.os j = s.os j) ∧
      Within [(R.outFound k, 0), (R.stuckCount, s.o R.stuckCount + 1)] (sessionRegs ++ latchRegs) s t)

/-- Start-up and reconciliation. -/
def Obligations.StartsAndReconciles : Prop :=
  Sys2Proof.Parts.StartsUp ∧ Sys2Proof.Parts.ReconcilesContactors

/-- A class A queue takes an item whole or not at all; an item that does not fit sets OVERRUN and counts as dropped,
FULL shows 1,024 words, and OVERRUN stays set until Q_FLAG_CLEAR is written or the queue is emptied (R373). -/
def Obligations.ClassAQueuesDropWhole : Prop := ∀ (s : State) (q : Fin 64) (item : List Nat), s.queues.length = 64 →
  s.a (R.qClass q) ≠ 1 →
  let t := (enqueue q item).run s
  let old := s.queue q
  (old.words.length + item.length ≤ 1024 → (t.queue q).words = old.words ++ item ∧ t.o (R.qDropped q) = s.o (R.qDropped q) ∧
    (t.queue q).overrun = old.overrun) ∧
  (1024 < old.words.length + item.length → (t.queue q).words = old.words ∧ (t.queue q).overrun = true ∧
    t.o (R.qDropped q) = norm (R.qDropped q) (s.o (R.qDropped q) + 1)) ∧
  bit (t.queue q).flags 0 = decide ((t.queue q).words.length = 1024) ∧ bit (t.queue q).flags 1 = (t.queue q).overrun ∧
  (∀ p, p < 64 → p ≠ q.val → t.queue p = s.queue p) ∧
  (∀ a : Action, a ≠ .clearFlags q → a ≠ .empty q → (∀ x, a ≠ .load q x) → old.overrun = true →
    ((a.apply s).queue q).overrun = true) ∧
  (∀ src, ((applied src (R.qFlagClear q) 1 s).queue q).overrun = false)

/-- A class B queue keeps one word free for the gap marker, counts the items that it drops in the marker or, on a
queue without a reserved word, in the pending count, and writes the marker once a word frees, ahead of every later
item (R374). -/
def Obligations.ClassBQueuesKeepAMarker : Prop := ∀ (s : State) (q : Fin 64) (item : List Nat), s.queues.length = 64 →
  s.a (R.qClass q) = 1 → (s.queue q).words.length ≤ 1024 →
  let t := (enqueue q item).run s
  let old := s.queue q
  let new := t.queue q
  let n := old.words.length
  (old.gapCount = 0 → n + item.length + 1 ≤ 1024 → new.words = old.words ++ item ∧ new.gapCount = 0 ∧
    t.o (R.qDropped q) = s.o (R.qDropped q)) ∧
  (old.gapCount = 0 → 1024 < n + item.length + 1 →
    t.o (R.qDropped q) = norm (R.qDropped q) (s.o (R.qDropped q) + 1) ∧
    (∀ l w, old.words = l ++ [w] → Queue.isGap w = true →
      new.words = l ++ [if w % 2 ^ 32 < 4294967295 then w + 1 else w] ∧ new.gapCount = 0) ∧
    (n < 1024 → (∀ l w, old.words = l ++ [w] → Queue.isGap w = false) → new.gapCount = 0 ∧ ∃ g, new.words = old.words ++ [g] ∧
      g / 2 ^ 48 = 0xFF00 ∧ g / 2 ^ 32 % 2 ^ 16 = s.frame % 2 ^ 16 ∧ g % 2 ^ 32 = 1) ∧
    (n = 1024 → (∀ l w, old.words = l ++ [w] → Queue.isGap w = false) →
      new.words = old.words ∧ new.gapCount = 1 ∧ new.gapFrame = s.frame ∧ bit new.flags 2 = true)) ∧
  (0 < old.gapCount → n = 1024 → new.words = old.words ∧ new.gapCount = old.gapCount + 1 ∧ new.gapFrame = old.gapFrame ∧
    t.o (R.qDropped q) = norm (R.qDropped q) (s.o (R.qDropped q) + 1)) ∧
  (∀ m : Nat, 0 < old.gapCount → n - m < 1024 → ∃ g, (old.consume m).words = old.words.drop m ++ [g] ∧
    (old.consume m).gapCount = 0 ∧ g / 2 ^ 48 = 0xFF00 ∧ g / 2 ^ 32 % 2 ^ 16 = old.gapFrame % 2 ^ 16 ∧
    g % 2 ^ 32 = min old.gapCount 4294967295) ∧
  (∀ p, p < 64 → p ≠ q.val → t.queue p = s.queue p)

/-- The share weights of an output are the floors of the proportional shares, with 1 added to the lowest module keys
until they sum to exactly 32,768 (R93). -/
def Sys2Proof.Parts.WeightsSumToOne : Prop := ∀ (frame : Nat) (l : List (Nat × Int)), (l.map Prod.fst).Nodup → (∀ x ∈ l, x.1 < 48 ∧ 0 ≤ x.2) →
  let w := weightsOf frame l
  w.map Prod.fst = l.map Prod.fst ∧
  (0 < sumOver l (·.2) → sumOver w (·.2) = 32768 ∧
    (∀ x ∈ l, ∀ y ∈ w, x.1 = y.1 → y.2 = x.2 * 32768 / sumOver l (·.2) ∨ y.2 = x.2 * 32768 / sumOver l (·.2) + 1) ∧
    (∀ x ∈ l, ∀ x' ∈ l, ∀ y ∈ w, ∀ y' ∈ w, x.1 = y.1 → x'.1 = y'.1 → modKey frame x.1 < modKey frame x'.1 →
      y'.2 = x'.2 * 32768 / sumOver l (·.2) + 1 → y.2 = x.2 * 32768 / sumOver l (·.2) + 1)) ∧
  (sumOver l (·.2) = 0 → ∀ y ∈ w, y.2 = 0)

/-- The battery total is split without loss, none to a string of no capability and the remainder to the lowest string
(R94); a module's current is split among its closed legs without loss, within 1 mA, the lowest legs first (R145). -/
def Sys2Proof.Parts.SharesSumToTheWhole : Prop :=
  (∀ (total : Int) (cap : List Int), 0 ≤ total → (∀ c ∈ cap, 0 ≤ c) → 0 < sumOver cap id →
    sumOver (batSplit total cap) id = total ∧ (batSplit total cap).length = cap.length ∧
    ∀ (i : Nat) (c x : Int), cap[i]? = some c → (batSplit total cap)[i]? = some x →
      total * c / sumOver cap id ≤ x ∧ (c = 0 → x = 0) ∧
      (c ≠ 0 → (∃ (j : Nat) (c' : Int), j < i ∧ cap[j]? = some c' ∧ c' ≠ 0) → x = total * c / sumOver cap id)) ∧
  (∀ (legs : List Nat) (im : Int), legs ≠ [] →
    (legSplit legs im).map Prod.fst = legs ∧ sumOver (legSplit legs im) (·.2) = im ∧
    ∀ (i j : Nat) (x y : Nat × Int), i ≤ j → (legSplit legs im)[i]? = some x → (legSplit legs im)[j]? = some y →
      y.2 ≤ x.2 ∧ x.2 ≤ y.2 + 1)

/-- The compensator's output keeps its limits and reports a clamp exactly where there is one, with the integrator
inside the anti-windup limits (R137); a profile generator keeps its rate and jerk limits and rests at its target
(R147, R148); a pulse keeps its dead times and its least width, and is 0 or the whole period otherwise (R133, R134).
-/
def Sys2Proof.Parts.LawsKeepTheirLimits : Prop :=
  (∀ (c : Coef) (e z1 z2 : Int) (fi : Int → Int) (fo lo hi awLo awHi : Int), lo ≤ hi →
    let r := comp c e z1 z2 fi fo lo hi awLo awHi
    let y := sat40 (z1 + rnd28 (c.b0 * e))
    let ff := rnd28 (c.kfi * fi y) + rnd28 (c.kfo * fo)
    lo ≤ r.u ∧ r.u ≤ hi ∧ (r.sat = false ↔ lo ≤ y + ff ∧ y + ff ≤ hi) ∧ (r.satHi = true ↔ hi < y + ff) ∧
    (awLo ≤ awHi → awLo - ff ≤ r.z1 ∧ r.z1 ≤ awHi - ff)) ∧
  (∀ g p v a vs as js : Int, 0 ≤ vs → 0 ≤ as → 0 < js →
    let r := genStep g p v a vs as js
    (r = (g, 0, 0) ∨ r.1 = p + r.2.1 ∧ -vs ≤ r.2.1 ∧ r.2.1 ≤ vs ∧ (r.2.1 = v + r.2.2) ∧
      (r.2.1 ≠ vs → r.2.1 ≠ -vs → -js ≤ r.2.2 - a ∧ r.2.2 - a ≤ js)) ∧
    -(vs + 2 * as) ≤ r.1 - p ∧ r.1 - p ≤ vs + 2 * as ∧ genStep g g 0 0 vs as js = (g, 0, 0)) ∧
  (∀ (n : Nat) (start p duty dead least : Int), 0 ≤ dead → 0 ≤ least → 0 < p → dead + least ≤ p →
    let e := (pwmEdges n start p duty dead least).1
    e.hRise = e.lFall + dead ∧ e.lRise = e.hFall + dead ∧ start ≤ e.lFall ∧
    (e.hFall - e.lFall = 0 ∨ e.hFall - e.lFall = p ∨
      dead + least ≤ e.hFall - e.lFall ∧ e.hFall - e.lFall ≤ p - dead - least) ∧
    (duty ≤ 0 → e.hFall = e.lFall) ∧ (268435456 ≤ duty → e.hFall - e.lFall = p))

/-- Weights, battery shares and leg currents sum exactly. -/
def Obligations.SharesSumToTheWhole : Prop :=
  Sys2Proof.Parts.WeightsSumToOne ∧ Sys2Proof.Parts.SharesSumToTheWhole ∧ Sys2Proof.Parts.LawsKeepTheirLimits

/-- For every list of demands and every budget, the fill of R85 gives each output between 0 and its demand, gives away
exactly the budget or all demands, whichever is less, and is fair: where an output gets less than its demand, no other
output gets more than 1 W beyond it. -/
def Obligations.FillSharesTheBudget : Prop := ∀ (c : List ShOut) (r : Int), 0 ≤ r → (∀ o ∈ c, o.key < 32 ∧ 0 ≤ o.dem) →
  let order := sortBy (fun o => o.dem * 32 + o.key) c
  let f := shFill c r
  order.Perm c ∧ f.map Prod.fst = order.map ShOut.k ∧
  (∀ (i : Nat) (o : ShOut) (x : Nat × Int), order[i]? = some o → f[i]? = some x → 0 ≤ x.2 ∧ x.2 ≤ o.dem) ∧
  sumOver f (·.2) = min r (sumOver c (·.dem)) ∧
  ∀ (i j : Nat) (o : ShOut) (x y : Nat × Int), order[i]? = some o → f[i]? = some x → f[j]? = some y → x.2 < o.dem → y.2 ≤ x.2 + 1

/-- An evaluation is whole: where every rule of the group passes, each active value of the group becomes the
snapshot's and no other active value moves, with STATUS 01b and the frame; where a rule fails, no active value moves
at all and the first failing rule and object are recorded; the shadows stay in either case (R27, R28, R30). -/
def Obligations.CommitsAreWhole : Prop := ∀ (u : State) (g : Nat) (snap : Store) (load : Bool) (extra : State → Fails), u.Fits → g < 268 →
  snap.Good →
  let t := (evaluate g snap load extra).run u
  t.shadow = u.shadow ∧
  (u.rules g snap = none → extra u = none →
    (∀ k, grpOf k = some g → shadowed k = true → t.a k = snap.get dflt k) ∧
    (∀ k, ¬ (grpOf k = some g ∧ shadowed k = true) → t.a k = u.a k) ∧
    t.o (R.gResult g) = (2 ^ 62 + u.frame % 2 ^ 24 : Nat) ∧ t.o (R.gFrame g) = norm (R.gFrame g) u.frame ∧
    t.o (R.gRejects g) = u.o (R.gRejects g)) ∧
  (∀ rule k, (match u.rules g snap with | some x => some x | none => extra u) = some (rule, k) →
    t.active = u.active ∧ t.o (R.gRejects g) = norm (R.gRejects g) (u.o (R.gRejects g) + 1) ∧
    t.o (R.gResult g) = norm (R.gResult g) (resultWord (if rule = 3 then 3 else 2) rule k u.frame) ∧
    t.o (R.gFrame g) = u.o (R.gFrame g))
end

