-- ==== Sys2Proof/Laws/Store.lean ====
section
/-!
SUPPORT. What a write to a store does: the key written reads as its value, every other key as before, and the canonical
form stays.
-/

namespace Sys2Proof.Machine

variable {d : Key → Int} {st : Store} {k k' : Key} {v : Int}

theorem Store.find_erase_same : (Store.erase st k).find k = none := by
  induction st with
  | nil => rfl
  | cons e t ih =>
    obtain ⟨k₁, v₁⟩ := e
    by_cases h : k = k₁ <;> simp [Store.erase, Store.find, h, ih] <;> simpa [h] using ih

theorem Store.find_erase_other (hk : k' ≠ k) : (Store.erase st k).find k' = st.find k' := by
  induction st with
  | nil => rfl
  | cons e t ih =>
    obtain ⟨k₁, v₁⟩ := e
    by_cases h : k = k₁
    · subst h; simp [Store.erase, Store.find, hk, ih]
    · simp [Store.erase, Store.find, h, ih]

theorem Store.find_insert_same : (Store.insert st k v).find k = some v := by
  induction st with
  | nil => simp [Store.insert, Store.find]
  | cons e t ih =>
    obtain ⟨k₁, v₁⟩ := e
    by_cases h : k < k₁
    · simp [Store.insert, Store.find, h]
    · by_cases h' : k = k₁ <;> simp [Store.insert, Store.find, h, h', ih]

theorem Store.find_insert_other (hk : k' ≠ k) : (Store.insert st k v).find k' = st.find k' := by
  induction st with
  | nil => simp [Store.insert, Store.find, hk]
  | cons e t ih =>
    obtain ⟨k₁, v₁⟩ := e
    by_cases h : k < k₁
    · simp [Store.insert, Store.find, h, hk]
    · by_cases h' : k = k₁
      · subst h'; simp [Store.insert, Store.find, hk]
      · simp [Store.insert, Store.find, h, h', ih]

/-- The key written reads as the value written. -/
@[simp] theorem Store.get_set_same : (st.set d k v).get d k = v := by
  by_cases h : v = d k <;>
    simp [Store.get, Store.set, h, Store.find_erase_same, Store.find_insert_same]

/-- Every other key reads as before. -/
theorem Store.get_set_other (hk : k' ≠ k) : (st.set d k v).get d k' = st.get d k' := by
  by_cases h : v = d k <;>
    simp [Store.get, Store.set, h, Store.find_erase_other hk, Store.find_insert_other hk]

theorem Store.get_set : (st.set d k v).get d k' = if k' = k then v else st.get d k' := by
  by_cases h : k' = k
  · subst h; simp
  · simp [h, Store.get_set_other h]

/-- The canonical form, said of the entries. -/
theorem Store.wf_iff :
    Store.wf d st = true ↔ (∀ e ∈ st, e.2 ≠ d e.1) ∧ st.Pairwise (fun a b => a.1 < b.1) := by
  induction st with
  | nil => simp [Store.wf]
  | cons e t ih =>
    obtain ⟨k₁, v₁⟩ := e
    cases t with
    | nil => simp [Store.wf]
    | cons e₂ t =>
      obtain ⟨k₂, v₂⟩ := e₂
      simp only [Store.wf, Bool.and_eq_true, bne_iff_ne, ne_eq, decide_eq_true_eq, ih]
      constructor
      · rintro ⟨⟨h₁, h₂⟩, h₃, h₄⟩
        refine ⟨?_, ?_⟩
        · intro e he
          cases he with
          | head => exact h₁
          | tail _ he => exact h₃ e he
        · refine List.Pairwise.cons ?_ h₄
          intro b hb
          cases hb with
          | head => exact h₂
          | tail _ hb =>
            have := (List.pairwise_cons.mp h₄).1 b hb
            exact Nat.lt_trans h₂ this
      · rintro ⟨h₁, h₂⟩
        have hp := List.pairwise_cons.mp h₂
        exact ⟨⟨h₁ (k₁, v₁) List.mem_cons_self, hp.1 (k₂, v₂) List.mem_cons_self⟩,
          fun e he => h₁ e (List.mem_cons_of_mem _ he), hp.2⟩

theorem Store.erase_eq : Store.erase st k = st.filter (fun e => decide (k ≠ e.1)) := by
  induction st with
  | nil => rfl
  | cons e t ih =>
    obtain ⟨k₁, v₁⟩ := e
    by_cases h : k = k₁ <;> simp [Store.erase, h, List.filter] <;> simpa [h] using ih

theorem Store.mem_insert {e : Key × Int} (h : e ∈ Store.insert st k v) : e = (k, v) ∨ e ∈ st := by
  induction st with
  | nil => simpa [Store.insert] using h
  | cons x t ih =>
    obtain ⟨k₁, v₁⟩ := x
    simp only [Store.insert] at h
    split at h
    · simpa using h
    · split at h
      · rcases List.mem_cons.mp h with h | h
        · exact .inl h
        · exact .inr (by simp [h])
      · rcases List.mem_cons.mp h with h | h
        · exact .inr (by simp [h])
        · rcases ih h with h | h
          · exact .inl h
          · exact .inr (by simp [h])

theorem Store.pairwise_insert (h : st.Pairwise (fun a b => a.1 < b.1)) :
    (Store.insert st k v).Pairwise (fun a b => a.1 < b.1) := by
  induction st with
  | nil => simp [Store.insert]
  | cons x t ih =>
    obtain ⟨k₁, v₁⟩ := x
    have hp := List.pairwise_cons.mp h
    simp only [Store.insert]
    split
    · rename_i hk
      refine List.Pairwise.cons ?_ h
      intro b hb
      cases hb with
      | head => exact hk
      | tail _ hb => exact Nat.lt_trans hk (hp.1 b hb)
    · split
      · rename_i hk
        subst hk
        exact List.Pairwise.cons hp.1 hp.2
      · rename_i h₁ h₂
        refine List.Pairwise.cons ?_ (ih hp.2)
        intro b hb
        rcases Store.mem_insert hb with rfl | hb
        · show k₁ < k
          have : k₁ ≠ k := fun e => h₂ e.symm
          have h₁ : ¬ k < k₁ := h₁
          simp only [Key] at *
          omega
        · exact hp.1 b hb

/-- A filtered store is canonical. -/
theorem Store.wf_filter (p : Key × Int → Bool) (h : st.wf d = true) : Store.wf d (st.filter p) = true := by
  rw [Store.wf_iff] at *
  exact ⟨fun e he => h.1 e (List.mem_filter.mp he).1, h.2.filter p⟩

/-- A write keeps the canonical form. -/
theorem Store.wf_set (h : st.wf d = true) : Store.wf d (st.set d k v) = true := by
  unfold Store.set
  split
  · rw [Store.erase_eq]; exact Store.wf_filter _ h
  · rename_i hv
    rw [Store.wf_iff] at *
    refine ⟨?_, Store.pairwise_insert h.2⟩
    intro e he
    rcases Store.mem_insert he with rfl | he
    · exact hv
    · exact h.1 e he

/-- An entry of a written store is the one written or was there. -/
theorem Store.mem_set {e : Key × Int} (h : e ∈ st.set d k v) : e = (k, v) ∨ e ∈ st := by
  unfold Store.set at h
  split at h
  · rw [Store.erase_eq] at h; exact .inr (List.mem_filter.mp h).1
  · exact Store.mem_insert h

/-- A filter keeps the entry of a key it accepts. -/
theorem Store.find_filter (p : Key → Bool) (h : p k = true) :
    Store.find (st.filter fun e => p e.1) k = st.find k := by
  induction st with
  | nil => rfl
  | cons e t ih =>
    obtain ⟨k₁, v₁⟩ := e
    by_cases hk : k = k₁
    · subst hk; simp [List.filter, h, Store.find]
    · by_cases hp : p k₁ <;> simp [List.filter, hp, Store.find, hk, ih]

end Sys2Proof.Machine
end

