-- ==== Sys2Proof/Laws/State.lean ====
section
/-!
SUPPORT. One lemma per field of the state and per action: what each action leaves as it was, and what a register reads
after a write.
-/

namespace Sys2Proof.Machine

variable (s : State) (k k' : Key) (v : Int) (f : Data → Data) (p : Key → Bool) (q n : Nat) (ws : List Nat)

/-! ## put -/

@[simp] theorem apply_put_pending : ((Action.put k v).apply s).pending = s.pending := by
  unfold Action.apply; dsimp only; split <;> rfl
@[simp] theorem apply_put_next : ((Action.put k v).apply s).next = s.next := by
  unfold Action.apply; dsimp only; split <;> rfl
@[simp] theorem apply_put_active : ((Action.put k v).apply s).active = s.active := by
  unfold Action.apply; dsimp only; split <;> rfl
@[simp] theorem apply_put_shadow : ((Action.put k v).apply s).shadow = s.shadow := by
  unfold Action.apply; dsimp only; split <;> rfl
@[simp] theorem apply_put_queues : ((Action.put k v).apply s).queues = s.queues := by
  unfold Action.apply; dsimp only; split <;> rfl
@[simp] theorem apply_put_d : ((Action.put k v).apply s).d = s.d := by
  unfold Action.apply; dsimp only; split <;> rfl

/-- A register reads what was written, brought into its type; a CONST object and every other register read as before. -/
theorem apply_put_o : ((Action.put k v).apply s).o k' = if k' = k ∧ isConst k = false then norm k v else s.o k' := by
  unfold Action.apply
  dsimp only
  split
  · rename_i h; simp [h]
  · rename_i h
    simp only [State.o, Store.get_set]
    by_cases hk : k' = k <;> simp [hk, h]

theorem apply_put_a : ((Action.put k v).apply s).a k' = s.a k' := by simp [State.a]
theorem apply_put_sh : ((Action.put k v).apply s).sh k' = s.sh k' := by simp [State.sh]

/-! ## putA, putS -/

@[simp] theorem apply_putA_pending : ((Action.putA k v).apply s).pending = s.pending := rfl
@[simp] theorem apply_putA_next : ((Action.putA k v).apply s).next = s.next := rfl
@[simp] theorem apply_putA_objs : ((Action.putA k v).apply s).objs = s.objs := rfl
@[simp] theorem apply_putA_shadow : ((Action.putA k v).apply s).shadow = s.shadow := rfl
@[simp] theorem apply_putA_queues : ((Action.putA k v).apply s).queues = s.queues := rfl
@[simp] theorem apply_putA_d : ((Action.putA k v).apply s).d = s.d := rfl
@[simp] theorem apply_putA_o : ((Action.putA k v).apply s).o k' = s.o k' := rfl
@[simp] theorem apply_putA_sh : ((Action.putA k v).apply s).sh k' = s.sh k' := rfl
theorem apply_putA_a : ((Action.putA k v).apply s).a k' = if k' = k then norm k v else s.a k' := by
  simp only [State.a, Action.apply, Store.get_set]

@[simp] theorem apply_putS_pending : ((Action.putS k v).apply s).pending = s.pending := rfl
@[simp] theorem apply_putS_next : ((Action.putS k v).apply s).next = s.next := rfl
@[simp] theorem apply_putS_objs : ((Action.putS k v).apply s).objs = s.objs := rfl
@[simp] theorem apply_putS_active : ((Action.putS k v).apply s).active = s.active := rfl
@[simp] theorem apply_putS_queues : ((Action.putS k v).apply s).queues = s.queues := rfl
@[simp] theorem apply_putS_d : ((Action.putS k v).apply s).d = s.d := rfl
@[simp] theorem apply_putS_o : ((Action.putS k v).apply s).o k' = s.o k' := rfl
@[simp] theorem apply_putS_a : ((Action.putS k v).apply s).a k' = s.a k' := rfl
theorem apply_putS_sh : ((Action.putS k v).apply s).sh k' = if k' = k then norm k v else s.sh k' := by
  simp only [State.sh, Action.apply, Store.get_set]

/-! ## data -/

@[simp] theorem apply_data_pending : ((Action.data f).apply s).pending = s.pending := rfl
@[simp] theorem apply_data_next : ((Action.data f).apply s).next = s.next := rfl
@[simp] theorem apply_data_objs : ((Action.data f).apply s).objs = s.objs := rfl
@[simp] theorem apply_data_active : ((Action.data f).apply s).active = s.active := rfl
@[simp] theorem apply_data_shadow : ((Action.data f).apply s).shadow = s.shadow := rfl
@[simp] theorem apply_data_queues : ((Action.data f).apply s).queues = s.queues := rfl
@[simp] theorem apply_data_d : ((Action.data f).apply s).d = f s.d := rfl
@[simp] theorem apply_data_o : ((Action.data f).apply s).o k' = s.o k' := rfl
@[simp] theorem apply_data_a : ((Action.data f).apply s).a k' = s.a k' := rfl
@[simp] theorem apply_data_sh : ((Action.data f).apply s).sh k' = s.sh k' := rfl

/-! ## Queues -/

@[simp] theorem apply_item_o : ((Action.item q ws).apply s).o k' = s.o k' := rfl
@[simp] theorem apply_item_a : ((Action.item q ws).apply s).a k' = s.a k' := rfl
@[simp] theorem apply_item_sh : ((Action.item q ws).apply s).sh k' = s.sh k' := rfl
@[simp] theorem apply_item_active : ((Action.item q ws).apply s).active = s.active := rfl
@[simp] theorem apply_item_shadow : ((Action.item q ws).apply s).shadow = s.shadow := rfl
@[simp] theorem apply_item_d : ((Action.item q ws).apply s).d = s.d := rfl
@[simp] theorem apply_item_next : ((Action.item q ws).apply s).next = s.next := rfl
@[simp] theorem apply_item_pending : ((Action.item q ws).apply s).pending = s.pending := rfl
@[simp] theorem apply_consume_o : ((Action.consume q n).apply s).o k' = s.o k' := rfl
@[simp] theorem apply_consume_d : ((Action.consume q n).apply s).d = s.d := rfl
@[simp] theorem apply_empty_o : ((Action.empty q).apply s).o k' = s.o k' := rfl
@[simp] theorem apply_empty_d : ((Action.empty q).apply s).d = s.d := rfl
@[simp] theorem apply_clearFlags_o : ((Action.clearFlags q).apply s).o k' = s.o k' := rfl
@[simp] theorem apply_clearFlags_d : ((Action.clearFlags q).apply s).d = s.d := rfl
@[simp] theorem apply_poison_o : ((Action.poison q n).apply s).o k' = s.o k' := rfl

@[simp] theorem length_setAt {α : Type} (l : List α) (i : Nat) (x : α) : (setAt l i x).length = l.length := by
  induction l generalizing i with
  | nil => rfl
  | cons a t ih => cases i <;> simp [setAt, ih]

theorem getD_setAt {α : Type} (l : List α) (i j : Nat) (x y : α) :
    (setAt l i x).getD j y = if j = i ∧ i < l.length then x else l.getD j y := by
  induction l generalizing i j with
  | nil => simp [setAt]
  | cons a t ih =>
    cases i with
    | zero => cases j <;> simp [setAt]
    | succ i =>
      cases j with
      | zero => simp [setAt]
      | succ j => simpa [setAt] using ih i j

theorem mem_setAt {α : Type} {l : List α} {i : Nat} {x y : α} (h : y ∈ setAt l i x) : y = x ∨ y ∈ l := by
  induction l generalizing i with
  | nil => simp [setAt] at h
  | cons a t ih =>
    cases i with
    | zero =>
      rcases List.mem_cons.mp h with h | h
      · exact .inl h
      · exact .inr (List.mem_cons_of_mem _ h)
    | succ i =>
      rcases List.mem_cons.mp h with h | h
      · exact .inr (by simp [h])
      · rcases ih h with h | h
        · exact .inl h
        · exact .inr (List.mem_cons_of_mem _ h)

/-! ## Types -/

/-- A value within its type stays within it. -/
theorem clamp_idem (lo hi x : Int) (h : lo ≤ hi) : clamp lo hi (clamp lo hi x) = clamp lo hi x := by
  unfold clamp; repeat' split
  all_goals omega

theorem Ty.norm_idem (t : Ty) (x : Int) : t.norm (t.norm x) = t.norm x := by
  cases t <;> simp only [Ty.norm] <;> first | exact clamp_idem _ _ _ (by decide) | exact Int.emod_emod_of_dvd _ (Int.dvd_refl _)

theorem norm_idem (k : Key) (x : Int) : norm k (norm k x) = norm k x := Ty.norm_idem _ _

/-- A hidden register keeps any value. -/
theorem norm_hid (h : tyOf k = .hid) : norm k v = v := by simp [norm, h, Ty.norm]

/-- A value within its type's bounds is kept. -/
theorem clamp_id (lo hi x : Int) (h₁ : lo ≤ x) (h₂ : x ≤ hi) : clamp lo hi x = x := by
  unfold clamp; split
  · omega
  · split
    · omega
    · rfl

end Sys2Proof.Machine
end

