-- ==== Sys2Proof/Laws/Catalogue.lean ====
section
/-!
SUPPORT. What the catalogue says of whole ranges of keys: which indices hold CONST objects, and that hidden registers hold
any value.
-/

namespace Sys2Proof.Machine

/-- A row found stands in a block that covers the index. -/
theorem findRow_mem {k : Key} {i : Nat} {r : Row} (h : findRow k = some (i, r)) :
    ∃ b ∈ blocks, b.has (k / 256) = true ∧ r ∈ b.rows ∧ r.has (k % 256) = true := by
  unfold findRow findBlock at h
  split at h
  · cases h
  · rename_i b hb
    split at h
    · cases h
    · rename_i r' hr
      simp only [Option.some.injEq, Prod.mk.injEq] at h
      obtain ⟨-, rfl⟩ := h
      have h₁ : b.has (k / 256) = true := List.find?_some (p := fun x : Block => x.has (k / 256)) hb
      have h₂ : r'.has (k % 256) = true := List.find?_some (p := fun x : Row => x.has (k % 256)) hr
      exact ⟨b, List.mem_of_find?_eq_some hb, h₁, List.mem_of_find?_eq_some hr, h₂⟩

/-- The blocks that hold CONST objects: identity, VL's hardware, the expected stocktake signatures. -/
theorem const_blocks : ∀ b ∈ blocks, (b.rows.any fun r => decide (r.acc = .const)) = true →
    0x1000 ≤ b.base ∧ b.base + b.count ≤ 0x1001 ∨ 0x4000 ≤ b.base ∧ b.base + b.count ≤ 0x4001 ∨
    0x4E10 ≤ b.base ∧ b.base + b.count ≤ 0x4E1C := by decide +kernel

/-- A key at any other index is not CONST. -/
theorem isConst_other (k : Key) (h₁ : k / 256 ≠ 0x1000) (h₂ : k / 256 ≠ 0x4000)
    (h₃ : k / 256 < 0x4E10 ∨ 0x4E1C ≤ k / 256) : isConst k = false := by
  cases h : isConst k
  · rfl
  · exfalso
    unfold isConst accOf at h
    cases hf : findRow k with
    | none => simp [hf] at h
    | some x =>
      obtain ⟨i, r⟩ := x
      simp only [hf, Option.map_some] at h
      have ha : r.acc = .const := by
        revert h
        cases r.acc <;> simp
      obtain ⟨b, hb, hi, hr, -⟩ := findRow_mem hf
      have hc := const_blocks b hb (List.any_eq_true.mpr ⟨r, hr, by simp [ha]⟩)
      simp only [Block.has, Bool.and_eq_true, decide_eq_true_eq] at hi
      simp only [Key] at *
      omega

/-- Blocks of the catalogue lie below index 10000h; blocks of hidden registers have rows of no type. -/
theorem hidden_blocks : ∀ b ∈ blocks, b.base + b.count ≤ 0x10000 ∨ (b.rows.all fun r => decide (r.ty = .hid)) = true := by
  decide +kernel

/-- A hidden register holds any value. -/
theorem tyOf_hidden (k : Key) (h : 0x10000 ≤ k / 256) : tyOf k = .hid := by
  unfold tyOf
  split
  · rfl
  · rename_i i r hf
    obtain ⟨b, hb, hi, hr, -⟩ := findRow_mem hf
    rcases hidden_blocks b hb with hc | hc
    · simp only [Block.has, Bool.and_eq_true, decide_eq_true_eq] at hi
      simp only [Key] at *; omega
    · have := List.all_eq_true.mp hc r hr
      simpa using this

theorem norm_hidden (k : Key) (v : Int) (h : 0x10000 ≤ k / 256) : norm k v = v := norm_hid k v (tyOf_hidden k h)

/-- A value that its type brings nowhere else. -/
theorem norm_u8 (k : Key) (v : Int) (h : tyOf k = .u8) (h₀ : 0 ≤ v) (h₁ : v ≤ 255) : norm k v = v := by
  simp [norm, h, Ty.norm, clamp_id _ _ _ h₀ h₁]
theorem norm_u16 (k : Key) (v : Int) (h : tyOf k = .u16) (h₀ : 0 ≤ v) (h₁ : v ≤ 65535) : norm k v = v := by
  simp [norm, h, Ty.norm, clamp_id _ _ _ h₀ h₁]
theorem norm_u32 (k : Key) (v : Int) (h : tyOf k = .u32) (h₀ : 0 ≤ v) (h₁ : v ≤ 4294967295) : norm k v = v := by
  simp [norm, h, Ty.norm, clamp_id _ _ _ h₀ h₁]

end Sys2Proof.Machine
end

