-- ==== Sys2Proof/Laws/Script.lean ====
section
/-!
SUPPORT. What scripts do: how each form of script runs, what a property of single actions says of every script, and what
handing the raised items to their queues can change.
-/

namespace Sys2Proof.Machine

/-! ## Running -/

@[simp] theorem run_skip (s : State) : Script.skip.run s = s := rfl
@[simp] theorem run_one (a : Action) (s : State) : (Script.one a).run s = a.apply s := rfl
@[simp] theorem run_seq (a b : Script) (s : State) : (Script.seq a b).run s = b.run (a.run s) := rfl
@[simp] theorem run_dyn (f : State → Script) (s : State) : (Script.dyn f).run s = (f s).run s := rfl
@[simp] theorem run_all_nil (s : State) : (all []).run s = s := rfl
@[simp] theorem run_all_cons (a : Script) (t : List Script) (s : State) :
    (all (a :: t)).run s = (all t).run (a.run s) := rfl
@[simp] theorem run_each_nil {α : Type} (f : α → Script) (s : State) : (each [] f).run s = s := rfl
@[simp] theorem run_each_cons {α : Type} (a : α) (t : List α) (f : α → Script) (s : State) :
    (each (a :: t) f).run s = (each t f).run ((f a).run s) := rfl
@[simp] theorem run_onlyIf (c : Bool) (a : Script) (s : State) :
    (onlyIf c a).run s = if c then a.run s else s := by
  unfold onlyIf; split <;> rfl

/-- What every single action keeps, every script keeps. -/
theorem Script.run_keeps (P : State → Prop) (h : ∀ a s, P s → P (Action.apply a s)) (sc : Script) :
    ∀ s, P s → P (sc.run s) := by
  induction sc with
  | skip => intro s hs; exact hs
  | one a => intro s hs; exact h a s hs
  | seq a b iha ihb => intro s hs; exact ihb _ (iha _ hs)
  | dyn f ih => intro s hs; exact ih s s hs

/-- A property that holds of every element's script holds of them one after another. -/
theorem run_each_keeps {α : Type} (P : State → Prop) (l : List α) (f : α → Script)
    (h : ∀ a ∈ l, ∀ s, P s → P ((f a).run s)) : ∀ s, P s → P ((each l f).run s) := by
  induction l with
  | nil => intro s hs; exact hs
  | cons a t ih =>
    intro s hs
    exact ih (fun b hb => h b (List.mem_cons_of_mem _ hb)) _ (h a List.mem_cons_self s hs)

/-! ## What no script changes -/

theorem apply_pending (a : Action) (s : State) : (a.apply s).pending = s.pending := by
  cases a <;> simp [Action.apply]
  split <;> rfl

theorem apply_next (a : Action) (s : State) : (a.apply s).next = s.next := by
  cases a <;> simp [Action.apply]
  split <;> rfl

/-- A CONST object keeps its value. -/
theorem apply_const (a : Action) (s : State) (k : Key) (hk : isConst k = true) : (a.apply s).o k = s.o k := by
  cases a with
  | put k' v => rw [apply_put_o]; split
                · rename_i h; rw [h.1] at hk; simp [hk] at h
                · rfl
  | forget p =>
    show Store.get dflt (s.objs.filter fun e => !p e.1 || isConst e.1) k = Store.get dflt s.objs k
    unfold Store.get
    rw [Store.find_filter (fun x => !p x || isConst x) (by simp [hk])]
  | _ => rfl

@[simp] theorem run_pending (sc : Script) (s : State) : (sc.run s).pending = s.pending :=
  sc.run_keeps (fun t => t.pending = s.pending) (fun a t h => (apply_pending a t).trans h) s rfl

@[simp] theorem run_next (sc : Script) (s : State) : (sc.run s).next = s.next :=
  sc.run_keeps (fun t => t.next = s.next) (fun a t h => (apply_next a t).trans h) s rfl

theorem run_const (sc : Script) (s : State) (k : Key) (hk : isConst k = true) : (sc.run s).o k = s.o k :=
  sc.run_keeps (fun t => t.o k = s.o k) (fun a t h => (apply_const a t k hk).trans h) s rfl

/-! ## Registers -/

theorem put_o (k k' : Key) (v : Int) (s : State) :
    ((put k v).run s).o k' = if k' = k ∧ isConst k = false then norm k v else s.o k' := apply_put_o s k k' v
@[simp] theorem put_a (k k' : Key) (v : Int) (s : State) : ((put k v).run s).a k' = s.a k' := apply_put_a s k k' v
@[simp] theorem put_sh (k k' : Key) (v : Int) (s : State) : ((put k v).run s).sh k' = s.sh k' := apply_put_sh s k k' v
@[simp] theorem put_active (k : Key) (v : Int) (s : State) : ((put k v).run s).active = s.active := by simp [put]
@[simp] theorem put_shadow (k : Key) (v : Int) (s : State) : ((put k v).run s).shadow = s.shadow := by simp [put]
@[simp] theorem put_queues (k : Key) (v : Int) (s : State) : ((put k v).run s).queues = s.queues := by simp [put]
@[simp] theorem put_d (k : Key) (v : Int) (s : State) : ((put k v).run s).d = s.d := by simp [put]

/-- The register written. -/
theorem put_o_same (k : Key) (v : Int) (s : State) (hc : isConst k = false) (hn : norm k v = v) :
    ((put k v).run s).o k = v := by simp [put_o, hc, hn]
/-- Every other register. -/
theorem put_o_other (k k' : Key) (v : Int) (s : State) (h : k' ≠ k) : ((put k v).run s).o k' = s.o k' := by
  simp [put_o, h]

theorem putS_sh (k k' : Key) (v : Int) (s : State) :
    ((putS k v).run s).sh k' = if k' = k then norm k v else s.sh k' := apply_putS_sh s k k' v
@[simp] theorem putS_o (k k' : Key) (v : Int) (s : State) : ((putS k v).run s).o k' = s.o k' := rfl
@[simp] theorem putS_active (k : Key) (v : Int) (s : State) : ((putS k v).run s).active = s.active := rfl
@[simp] theorem putS_d (k : Key) (v : Int) (s : State) : ((putS k v).run s).d = s.d := rfl
theorem putA_a (k k' : Key) (v : Int) (s : State) :
    ((putA k v).run s).a k' = if k' = k then norm k v else s.a k' := apply_putA_a s k k' v
@[simp] theorem putA_o (k k' : Key) (v : Int) (s : State) : ((putA k v).run s).o k' = s.o k' := rfl
@[simp] theorem putA_shadow (k : Key) (v : Int) (s : State) : ((putA k v).run s).shadow = s.shadow := rfl
@[simp] theorem putA_d (k : Key) (v : Int) (s : State) : ((putA k v).run s).d = s.d := rfl

@[simp] theorem upd_o (f : Data → Data) (k : Key) (s : State) : ((upd f).run s).o k = s.o k := rfl
@[simp] theorem upd_a (f : Data → Data) (k : Key) (s : State) : ((upd f).run s).a k = s.a k := rfl
@[simp] theorem upd_sh (f : Data → Data) (k : Key) (s : State) : ((upd f).run s).sh k = s.sh k := rfl
@[simp] theorem upd_objs (f : Data → Data) (s : State) : ((upd f).run s).objs = s.objs := rfl
@[simp] theorem upd_active (f : Data → Data) (s : State) : ((upd f).run s).active = s.active := rfl
@[simp] theorem upd_shadow (f : Data → Data) (s : State) : ((upd f).run s).shadow = s.shadow := rfl
@[simp] theorem upd_queues (f : Data → Data) (s : State) : ((upd f).run s).queues = s.queues := rfl
@[simp] theorem upd_d (f : Data → Data) (s : State) : ((upd f).run s).d = f s.d := rfl

/-- One more than a register held. -/
theorem bump_o (k k' : Key) (s : State) :
    ((bump k).run s).o k' = if k' = k ∧ isConst k = false then norm k (s.o k + 1) else s.o k' := put_o _ _ _ _
@[simp] theorem bump_active (k : Key) (s : State) : ((bump k).run s).active = s.active := put_active _ _ _
@[simp] theorem bump_shadow (k : Key) (s : State) : ((bump k).run s).shadow = s.shadow := put_shadow _ _ _
@[simp] theorem bump_queues (k : Key) (s : State) : ((bump k).run s).queues = s.queues := put_queues _ _ _
@[simp] theorem bump_a (k k' : Key) (s : State) : ((bump k).run s).a k' = s.a k' := put_a _ _ _ _
@[simp] theorem bump_d (k : Key) (s : State) : ((bump k).run s).d = s.d := put_d _ _ _

/-- A message sent, an item raised, an event word raised: no register changes. -/
@[simp] theorem send_o (m : Sent) (k : Key) (s : State) : ((send m).run s).o k = s.o k := rfl
@[simp] theorem send_active (m : Sent) (s : State) : ((send m).run s).active = s.active := rfl
@[simp] theorem send_shadow (m : Sent) (s : State) : ((send m).run s).shadow = s.shadow := rfl
@[simp] theorem send_queues (m : Sent) (s : State) : ((send m).run s).queues = s.queues := rfl
@[simp] theorem send_d (m : Sent) (s : State) : ((send m).run s).d = { s.d with sent := s.d.sent ++ [m] } := rfl
@[simp] theorem event_o (q : Key) (ev i v : Nat) (k : Key) (s : State) : ((event q ev i v).run s).o k = s.o k := rfl
@[simp] theorem event_a (q : Key) (ev i v : Nat) (k : Key) (s : State) : ((event q ev i v).run s).a k = s.a k := rfl
@[simp] theorem event_active (q : Key) (ev i v : Nat) (s : State) : ((event q ev i v).run s).active = s.active := rfl
@[simp] theorem event_shadow (q : Key) (ev i v : Nat) (s : State) : ((event q ev i v).run s).shadow = s.shadow := rfl
@[simp] theorem event_queues (q : Key) (ev i v : Nat) (s : State) : ((event q ev i v).run s).queues = s.queues := rfl
@[simp] theorem event_d (q : Key) (ev i v : Nat) (s : State) :
    ((event q ev i v).run s).d =
      { s.d with raised := s.d.raised ++ [(q, [eventWord ev i v (s.o R.frameNo).toNat])] } := rfl

/-! ## The queues' counters, and the end of a command -/

theorem isQCount_qDropped (q : Nat) (h : q < 64) : isQCount (R.qDropped q) = true := by
  have h₁ : R.qDropped q / 256 = 0x4C40 + q := by simp only [R.qDropped, Key]; omega
  have h₂ : R.qDropped q % 256 = 8 := by simp only [R.qDropped, Key]; omega
  simp [isQCount, h₁, h₂, Key]; omega

theorem isQCount_qWritten (q : Nat) (h : q < 64) : isQCount (R.qWritten q) = true := by
  have h₁ : R.qWritten q / 256 = 0x4C40 + q := by simp only [R.qWritten, Key]; omega
  have h₂ : R.qWritten q % 256 = 0x0B := by simp only [R.qWritten, Key]; omega
  simp [isQCount, h₁, h₂, Key]; omega

/-- An item written to a queue changes the queue and its counters, nothing else. -/
theorem enqueue_keeps (q : Nat) (ws : List Nat) (s : State) :
    (∀ k, isQCount k = false → ((enqueue q ws).run s).o k = s.o k) ∧
    ((enqueue q ws).run s).active = s.active ∧ ((enqueue q ws).run s).shadow = s.shadow ∧
    ((enqueue q ws).run s).d = s.d := by
  unfold enqueue
  simp only [run_dyn]
  split
  · simp
  · rename_i hq
    have h₁ := isQCount_qDropped q (by omega)
    have h₂ := isQCount_qWritten q (by omega)
    simp only [run_all_cons, run_all_nil, run_one]
    split
    · refine ⟨fun k hk => ?_, by simp, by simp, by simp⟩
      rw [put_o_other _ _ _ _ (by rintro rfl; rw [h₁] at hk; cases hk),
        put_o_other _ _ _ _ (by rintro rfl; rw [h₂] at hk; cases hk), apply_item_o]
    · refine ⟨fun k hk => ?_, by simp, by simp, by simp⟩
      rw [run_skip, put_o_other _ _ _ _ (by rintro rfl; rw [h₂] at hk; cases hk), apply_item_o]

@[simp] theorem upd_dueAt (f : Data → Data) (s : State) : ((upd f).run s).dueAt = s.dueAt := rfl

/-- Writing the raised items changes the queues and their counters, nothing else. -/
theorem flushNow_keeps (s : State) :
    (∀ k, isQCount k = false → (flushNow.run s).o k = s.o k) ∧ (flushNow.run s).active = s.active ∧
    (flushNow.run s).shadow = s.shadow ∧ (flushNow.run s).d = { s.d with raised := [] } := by
  unfold flushNow
  simp only [run_dyn, run_seq]
  exact run_each_keeps
    (fun t => (∀ k, isQCount k = false → t.o k = s.o k) ∧ t.active = s.active ∧ t.shadow = s.shadow ∧
      t.d = { s.d with raised := [] }) _ _
    (fun x _ t ht =>
      have h := enqueue_keeps (s.a x.1).toNat x.2 t
      ⟨fun k hk => (h.1 k hk).trans (ht.1 k hk), h.2.1.trans ht.2.1, h.2.2.1.trans ht.2.2.1, h.2.2.2.trans ht.2.2.2⟩)
    _ ⟨fun _ _ => rfl, rfl, rfl, rfl⟩

/-! ## Acceptance (R35, R313) -/

/-- An acceptance counts one sequence number, leaves the stamp waiting and mirrors the input; nothing else. -/
theorem accept_keeps (src : Src) (tag : Nat) (inp : Input) (s : State) :
    (∀ k, k ≠ R.seqNo → ((accept src tag inp).run s).o k = s.o k) ∧
    ((accept src tag inp).run s).o R.seqNo = s.o R.seqNo + 1 ∧
    ((accept src tag inp).run s).active = s.active ∧ ((accept src tag inp).run s).shadow = s.shadow ∧
    ((accept src tag inp).run s).queues = s.queues ∧
    ((accept src tag inp).run s).d = s.takes src tag inp s.d := by
  have hc : isConst R.seqNo = false := by decide
  have hn : ∀ v, norm R.seqNo v = v := fun v => norm_hid _ _ (by decide)
  unfold accept acceptLocal State.takes State.mirrors State.stampOf
  simp only [run_dyn, run_seq, run_all_cons, run_all_nil]
  split
  · rename_i h
    refine ⟨fun k hk => ?_, ?_, ?_, ?_, ?_, ?_⟩ <;> simp [bump_o, *]
  · rename_i h
    refine ⟨fun k hk => ?_, ?_, ?_, ?_, ?_, ?_⟩ <;> simp [bump_o, *]

/-- The state a command's script starts from: what the command before it sent is gone. -/
def State.fresh (s : State) : State := { s with d := { s.d with sent := [] } }

@[simp] theorem fresh_o (s : State) (k : Key) : s.fresh.o k = s.o k := rfl
@[simp] theorem fresh_a (s : State) (k : Key) : s.fresh.a k = s.a k := rfl
@[simp] theorem fresh_sh (s : State) (k : Key) : s.fresh.sh k = s.sh k := rfl
@[simp] theorem fresh_active (s : State) : s.fresh.active = s.active := rfl
@[simp] theorem fresh_shadow (s : State) : s.fresh.shadow = s.shadow := rfl
@[simp] theorem fresh_queues (s : State) : s.fresh.queues = s.queues := rfl
@[simp] theorem fresh_next (s : State) : s.fresh.next = s.next := rfl
@[simp] theorem fresh_pending (s : State) : s.fresh.pending = s.pending := rfl
@[simp] theorem fresh_dueAt (s : State) : s.fresh.dueAt = s.dueAt := rfl
@[simp] theorem fresh_d (s : State) : s.fresh.d = { s.d with sent := [] } := rfl

/-- What a command answers: its script from the fresh state, then the raised items handed over. -/
theorem does_eq (sc : Script) (s : State) : does sc s = .next (flush.run (sc.run s.fresh)) := rfl

/-- A command whose condition holds. -/
theorem doesIf_eq {c : State → Bool} {s : State} (h : c s.fresh = true) (sc : Script) :
    doesIf c sc s = .next (flush.run (sc.run s.fresh)) := by
  simp [doesIf, does_eq, h]

/-- A command whose condition does not hold has no effect but the end of what was raised. -/
theorem doesIf_none {c : State → Bool} {s : State} (h : c s.fresh = false) (sc : Script) :
    doesIf c sc s = .next (flush.run s.fresh) := by
  simp [doesIf, does_eq, h]

theorem movesIf_eq {c : State → Bool} {n : State → Fin 501} {s : State} (h : c s = true) (sc : Script) :
    movesIf c n sc s = .next (flush.run (sc.run { s with next := n s }.fresh)) := by
  simp [movesIf, does_eq, h]

/-! ## The queues after a command -/

@[simp] theorem enqueue_a (q : Nat) (ws : List Nat) (s : State) (k : Key) : ((enqueue q ws).run s).a k = s.a k := by
  simp [State.a, (enqueue_keeps q ws s).2.1]

theorem enqueue_queues (q : Nat) (ws : List Nat) (s : State) :
    ((enqueue q ws).run s).queues =
      if 64 ≤ q then s.queues
      else setAt s.queues q ((s.queue q).add (s.a (classKey q) = 1) (s.o R.frameNo).toNat ws).1 := by
  unfold enqueue
  simp only [run_dyn]
  split
  · rfl
  · simp only [run_all_cons, run_all_nil, run_one]
    split <;> simp [Action.apply]

/-- The queues take the raised items in R372's order. -/
theorem flushNow_queues (s : State) : (flushNow.run s).queues = handOver s s.d.raised := by
  unfold flushNow handOver
  simp only [run_dyn, run_seq]
  have key : ∀ (l : List (Key × List Nat)) (t : State), (∀ k, t.a k = s.a k) → t.o R.frameNo = s.o R.frameNo →
      ((each l fun x => enqueue (s.a x.1).toNat x.2).run t).queues = l.foldl (give s) t.queues := by
    intro l
    induction l with
    | nil => intro t _ _; rfl
    | cons x l ih =>
      intro t ha hf
      simp only [run_each_cons, List.foldl_cons]
      rw [ih _ (fun k => by simp [ha]) ((enqueue_keeps _ _ _).1 _ (by decide) |>.trans hf)]
      congr 1
      rw [enqueue_queues]
      simp [give, State.queue, ha, hf]
  exact key _ _ (fun _ => rfl) rfl

/-- Where an input accepted now falls due depends on the frame, the gap and the sample counter alone. -/
theorem dueAt_congr {s t : State} (hn : t.next = s.next) (hf : t.o R.frameNo = s.o R.frameNo)
    (hg : t.o R.inGap = s.o R.inGap) : t.dueAt = s.dueAt := by
  simp [State.dueAt, State.frame, State.sample, hn, hf, hg]

/-- The items of a producing unit are accepted one after another. -/
theorem run_items (s : State) (l : List (Key × List Nat)) (t : State) (hn : t.next = s.next)
    (hf : t.o R.frameNo = s.o R.frameNo) (hg : t.o R.inGap = s.o R.inGap) (hp : t.o R.pairRole = s.o R.pairRole) :
    let u := (each l fun x => accept .firmware 0 (.item (s.a x.1).toNat x.2)).run t
    (∀ k, k ≠ R.seqNo → u.o k = t.o k) ∧ u.o R.seqNo = t.o R.seqNo + (l.length : Int) ∧ u.active = t.active ∧
      u.shadow = t.shadow ∧ u.queues = t.queues ∧ u.d = s.stampItems l (t.o R.seqNo) t.d := by
  induction l generalizing t with
  | nil => simp [State.stampItems]
  | cons x l ih =>
    have h := accept_keeps .firmware 0 (.item (s.a x.1).toNat x.2) t
    have ih := ih ((accept .firmware 0 (.item (s.a x.1).toNat x.2)).run t) (by simp [hn])
      ((h.1 _ (by decide)).trans hf) ((h.1 _ (by decide)).trans hg) ((h.1 _ (by decide)).trans hp)
    have hd := dueAt_congr hn hf hg
    simp only [run_each_cons]
    refine ⟨fun k hk => (ih.1 k hk).trans (h.1 k hk), ?_, ih.2.2.1.trans h.2.2.1, ih.2.2.2.1.trans h.2.2.2.1,
      ih.2.2.2.2.1.trans h.2.2.2.2.1, ?_⟩
    · rw [ih.2.1, h.2.1]; simp; omega
    · rw [ih.2.2.2.2.2, h.2.1, h.2.2.2.2.2]
      simp [State.stampItems, State.takes, State.stampOf, State.mirrors, hd, hp]

theorem stampItems_raised (s : State) (l : List (Key × List Nat)) (n : Int) (d : Data) (r : List (Key × List Nat)) :
    s.stampItems l n { d with raised := r } = { s.stampItems l n d with raised := r } := by
  induction l generalizing n d with
  | nil => rfl
  | cons x l ih => simp only [State.stampItems]; rw [← ih]

/-- The end of a command, on a SOLO unit and in a pair. -/
theorem flush_effect (s : State) :
    (∀ k, isQCount k = false → k ≠ R.seqNo → (flush.run s).o k = s.o k) ∧
    (flush.run s).o R.seqNo = s.o R.seqNo + (if s.produces then ((sortRaised s.d.raised).length : Int) else 0) ∧
    (flush.run s).active = s.active ∧ (flush.run s).shadow = s.shadow ∧
    (flush.run s).d = { (if s.produces then s.stampItems (sortRaised s.d.raised) (s.o R.seqNo) s.d else s.d) with
      raised := [] } ∧
    (flush.run s).queues = if s.o R.pairRole = 0 then handOver s s.d.raised else s.queues := by
  unfold flush
  simp only [run_dyn]
  by_cases h : s.o R.pairRole = 0
  · have hk := flushNow_keeps s
    have hp : s.produces = false := by simp [State.produces, h]
    simp only [h, hp, if_true, Bool.false_eq_true, if_false]
    exact ⟨fun k hc _ => hk.1 k hc, by simpa using hk.1 R.seqNo (by decide), hk.2.1, hk.2.2.1, hk.2.2.2, flushNow_queues s⟩
  · simp only [h, if_false, run_seq, run_onlyIf]
    by_cases hp : s.produces = true
    · have hc : (decide (s.o R.pairRole = 1) || decide (s.o R.pairRole = 3) && s.o R.swapRun != 2) = true := hp
      simp only [hc, hp, if_true]
      have hr := run_items s (sortRaised s.d.raised) ((upd fun d => { d with raised := [] }).run s) rfl rfl rfl rfl
      refine ⟨fun k _ hk => (hr.1 k hk).trans rfl, hr.2.1.trans rfl, hr.2.2.1.trans rfl, hr.2.2.2.1.trans rfl, ?_,
        hr.2.2.2.2.1.trans rfl⟩
      rw [hr.2.2.2.2.2]
      exact stampItems_raised _ _ _ _ _
    · have hp : s.produces = false := by simpa using hp
      have hc : (decide (s.o R.pairRole = 1) || decide (s.o R.pairRole = 3) && s.o R.swapRun != 2) = false := hp
      simp [hc, hp]

/-- The effect of a command in full, from the state that its script leaves. -/
theorem effect_of_state {u s : State} {l : List (Key × Int)} {f : Data → Data} {items : List (Key × List Nat)}
    (hnx : u.next = s.next) (hpd : u.pending = s.pending)
    (hr : ∀ e ∈ l, u.o e.1 = norm e.1 e.2)
    (ho : ∀ k, k ∉ l.map Prod.fst → u.o k = s.o k)
    (ha : u.active = s.active) (hs : u.shadow = s.shadow)
    (hq : u.queues = s.queues)
    (hd : u.d = { f { s.d with sent := [] } with raised := s.d.raised ++ items })
    (hl : ∀ e ∈ l, isQCount e.1 = false)
    (hf : R.frameNo ∉ l.map Prod.fst) (hg : R.inGap ∉ l.map Prod.fst) (hp : R.pairRole ∉ l.map Prod.fst)
    (hw : R.swapRun ∉ l.map Prod.fst) (hn : R.seqNo ∉ l.map Prod.fst ∨ s.d.raised ++ items = []) :
    Effect l f items s (flush.run u) := by
  have h := flush_effect u
  have hA : ∀ k, u.a k = s.a k := fun k => by simp [State.a, ha]
  have hdue := dueAt_congr hnx (ho _ hf) (ho _ hg)
  have hpr : u.produces = s.produces := by simp [State.produces, ho _ hp, ho _ hw]
  have hst : ∀ l n d, u.stampItems l n d = s.stampItems l n d := by
    intro l
    induction l with
    | nil => intro n d; rfl
    | cons x l ih =>
      intro n d
      simp only [State.stampItems, State.stampOf, State.mirrors, hdue, hA, ho _ hp, ih]
  have hg' : give u = give s := by
    funext qs x
    simp only [give, hA, ho _ hf]
  rw [hd] at h
  refine ⟨fun e he => ?_, fun k hk hc hsq => ?_, fun hsq => ?_, h.2.2.1.trans ha, h.2.2.2.1.trans hs, by simpa using hnx, by simpa using hpd,
    ?_, ?_⟩
  · by_cases hes : e.1 = R.seqNo
    · rcases hn with hn | hn
      · exact absurd (List.mem_map.mpr ⟨e, he, hes⟩) hn
      · rw [hes, h.2.1, hpr, ← hes, hr e he]; simp [hn, sortRaised]
    · rw [h.1 _ (hl e he) hes, hr e he]
  · rw [h.1 _ hc hsq, ho k hk]
  · rw [h.2.1, hpr, ho _ hsq]
  · rw [h.2.2.2.2.1, hpr]
    rcases hn with hn | hn
    · simp only [hst, ho _ hn]
      cases s.produces
      · rfl
      · simp only [if_true, stampItems_raised]
    · simp only [hn, sortRaised, List.foldl_nil, State.stampItems, ite_self]
  · rw [h.2.2.2.2.2, ho _ hp, hq]
    unfold handOver
    rw [hg', hq]

/-- The effect of a command in full, from what its script does. -/
theorem effect_of {sc : Script} {s : State} {l : List (Key × Int)} {f : Data → Data} {items : List (Key × List Nat)}
    (hr : ∀ e ∈ l, (sc.run s.fresh).o e.1 = norm e.1 e.2)
    (ho : ∀ k, k ∉ l.map Prod.fst → (sc.run s.fresh).o k = s.o k)
    (ha : (sc.run s.fresh).active = s.active) (hs : (sc.run s.fresh).shadow = s.shadow)
    (hq : (sc.run s.fresh).queues = s.queues)
    (hd : (sc.run s.fresh).d = { f { s.d with sent := [] } with raised := s.d.raised ++ items })
    (hl : ∀ e ∈ l, isQCount e.1 = false)
    (hf : R.frameNo ∉ l.map Prod.fst) (hg : R.inGap ∉ l.map Prod.fst) (hp : R.pairRole ∉ l.map Prod.fst)
    (hw : R.swapRun ∉ l.map Prod.fst) (hn : R.seqNo ∉ l.map Prod.fst ∨ s.d.raised ++ items = []) :
    Effect l f items s (flush.run (sc.run s.fresh)) :=
  effect_of_state (by simp) (by simp) hr ho ha hs hq hd hl hf hg hp hw hn

end Sys2Proof.Machine
end

