-- ==== Sys2Proof/Laws/Exec.lean ====
section
/-!
SUPPORT. What every command's meaning is: a script, run from the state as it stands or, for the three commands that move
the sample counter, from the state with the counter moved.
-/

namespace Sys2Proof.Machine

/-- A command of which nothing moves the sample counter. -/
def Runs (o : Host.Outcome State Fault Refusal) (s : State) : Prop := ∃ sc, o = does sc s

theorem runs_does (sc : Script) (s : State) : Runs (does sc s) s := ⟨sc, rfl⟩
theorem runs_doesIf (c : State → Bool) (sc : Script) (s : State) : Runs (doesIf c sc s) s := ⟨_, rfl⟩

/-- The commands that move the sample counter. -/
def movesCounter : Instr → Bool
  | .controlSample .. => true
  | .powerFrameBoundary => true
  | .startUp .. => true
  | _ => false

/-- Every other command is a script run from the state as it stands. -/
theorem exec_runs (i : Instr) (s : State) (h : movesCounter i = false) : Runs (exec i s) s := by
  cases i
  case controlSample => cases h
  case powerFrameBoundary => cases h
  case startUp => cases h
  case reconcileOpen f => cases f <;> exact runs_doesIf _ _ _
  case reconcileStuck f => cases f <;> exact runs_doesIf _ _ _
  case safetyDemand f => cases f <;> exact runs_doesIf _ _ _
  all_goals exact runs_doesIf _ _ _

/-- The three that move it: under their condition from the moved counter, else without effect. -/
theorem exec_controlSample (sd : List (Nat × Nat)) (a b : Bool) (s : State) :
    ∃ sc n, exec (.controlSample sd a b) s = does sc { s with next := n } ∧
      (n = s.next ∨ (s.next.val < 500 ∧ n = nextSample s)) := by
  show ∃ sc n, execControlSample sd a b s = _ ∧ _
  unfold execControlSample movesIf
  split
  · rename_i h
    refine ⟨_, nextSample s, rfl, .inr ⟨?_, rfl⟩⟩
    simp only [Bool.and_eq_true, decide_eq_true_eq] at h
    exact h.1.1
  · exact ⟨.skip, s.next, rfl, .inl rfl⟩

theorem exec_powerFrameBoundary (s : State) :
    ∃ sc n, exec .powerFrameBoundary s = does sc { s with next := n } ∧
      (n = s.next ∨ (s.next.val = 500 ∧ n = 0)) := by
  show ∃ sc n, execPowerFrameBoundary s = _ ∧ _
  unfold execPowerFrameBoundary movesIf
  split
  · rename_i h
    simp only [Bool.and_eq_true, decide_eq_true_eq] at h
    exact ⟨_, 0, rfl, .inr ⟨h.1, rfl⟩⟩
  · exact ⟨.skip, s.next, rfl, .inl rfl⟩

theorem exec_startUp (env : StartEnv) (s : State) :
    ∃ sc n, exec (.startUp env) s = does sc { s with next := n } ∧
      (n = s.next ∨ (s.o R.startPhase = 1 ∧ n = 0)) := by
  show ∃ sc n, execStartUp env s = _ ∧ _
  unfold execStartUp movesIf
  split
  · rename_i h
    simp only [decide_eq_true_eq] at h
    exact ⟨_, 0, rfl, .inr ⟨h, rfl⟩⟩
  · exact ⟨.skip, s.next, rfl, .inl rfl⟩

/-- Every command's meaning, in one shape. -/
theorem exec_shape (i : Instr) (s : State) : ∃ sc n, exec i s = does sc { s with next := n } := by
  by_cases h : movesCounter i = true
  · cases i <;> simp [movesCounter] at h
    case controlSample sd a b => obtain ⟨sc, n, h, -⟩ := exec_controlSample sd a b s; exact ⟨sc, n, h⟩
    case powerFrameBoundary => obtain ⟨sc, n, h, -⟩ := exec_powerFrameBoundary s; exact ⟨sc, n, h⟩
    case startUp env => obtain ⟨sc, n, h, -⟩ := exec_startUp env s; exact ⟨sc, n, h⟩
  · obtain ⟨sc, h⟩ := exec_runs i s (by simpa using h)
    exact ⟨sc, s.next, h⟩

end Sys2Proof.Machine
end

