-- ==== Sys2Proof/Laws/Keeps.lean ====
section
/-!
SUPPORT. What a script leaves alone, rule by rule over how scripts are built, and how the end of a command follows: `Does`,
`Within` and `Change` from what the script does to registers, copies and data.
-/

namespace Sys2Proof.Machine

/-! ## Registers -/

theorem put_o_self (k : Key) (v : Int) (s : State) (h : isConst k = false) : ((put k v).run s).o k = norm k v := by
  simp [put_o, h]

theorem bump_eq (k : Key) (s : State) : (bump k).run s = (put k (s.o k + 1)).run s := rfl

theorem norm_zero (k : Key) : norm k 0 = 0 := by
  unfold Machine.norm
  cases tyOf k <;> simp [Ty.norm, clamp]

/-- Keys outside the queues' pages are no counter of a queue. -/
theorem isQCount_other (k : Nat) (h : k < 0x4C4000 ∨ 0x4C8000 ≤ k) : isQCount k = false := by
  unfold isQCount
  simp only [Key]
  rcases h with h | h
  · have : ¬ (19520 ≤ k / 256) := by omega
    simp [this]
  · have : ¬ (k / 256 < 19584) := by omega
    simp [this]

/-- Keys outside the identity pages are no constants. -/
theorem notConst (k : Nat)
    (h : k < 0x100000 ∨ (0x100100 ≤ k ∧ k < 0x400000) ∨ (0x400100 ≤ k ∧ k < 0x4E1000) ∨ 0x4E1C00 ≤ k) :
    isConst k = false := by
  apply isConst_other <;> simp only [Key] <;> omega

theorem fam_ne {r : Nat → Key} {n i : Nat} {k : Key} (h : ¬ fam r n k) (hi : i < n) : k ≠ r i := fun e => h ⟨i, hi, e⟩

/-! ## A script that leaves a register alone -/

/-- The script leaves register k as it was. -/
def Keeps (sc : Script) (k : Key) : Prop := ∀ s, (sc.run s).o k = s.o k

theorem Keeps.skip (k : Key) : Keeps .skip k := fun _ => rfl
theorem Keeps.put (k k' : Key) (v : Int) (h : k' ≠ k) : Keeps (put k v) k' := fun s => put_o_other _ _ _ s h
theorem Keeps.bump (k k' : Key) (h : k' ≠ k) : Keeps (bump k) k' := fun s => put_o_other _ _ _ s h
theorem Keeps.putA (k k' : Key) (v : Int) : Keeps (putA k v) k' := fun _ => rfl
theorem Keeps.putS (k k' : Key) (v : Int) : Keeps (putS k v) k' := fun _ => rfl
theorem Keeps.upd (f : Data → Data) (k' : Key) : Keeps (upd f) k' := fun _ => rfl
theorem Keeps.send (m : Sent) (k' : Key) : Keeps (send m) k' := fun _ => rfl
theorem Keeps.raise (q : Key) (w : List Nat) (k' : Key) : Keeps (raise q w) k' := fun _ => rfl
theorem Keeps.event (q : Key) (a b c : Nat) (k' : Key) : Keeps (event q a b c) k' := fun _ => rfl
theorem Keeps.seq {a b : Script} {k : Key} (ha : Keeps a k) (hb : Keeps b k) : Keeps (.seq a b) k :=
  fun s => (hb _).trans (ha s)
theorem Keeps.dyn {f : State → Script} {k : Key} (h : ∀ s, Keeps (f s) k) : Keeps (.dyn f) k := fun s => h s s
theorem Keeps.nil (k : Key) : Keeps (all []) k := fun _ => rfl
theorem Keeps.cons {a : Script} {l : List Script} {k : Key} (ha : Keeps a k) (hb : Keeps (all l) k) : Keeps (all (a :: l)) k :=
  fun s => (hb _).trans (ha s)
theorem Keeps.onlyIf {c : Bool} {a : Script} {k : Key} (ha : Keeps a k) : Keeps (onlyIf c a) k := by
  unfold Machine.onlyIf; split; exact ha; exact Keeps.skip k
theorem Keeps.draw {w : Nat} {f : Nat → Script} {k : Key} (h : ∀ n, Keeps (f n) k) : Keeps (draw w f) k := by
  unfold Machine.draw; exact Keeps.dyn fun s => Keeps.seq (Keeps.upd _ _) (h _)
theorem Keeps.each {α : Type} {l : List α} {f : α → Script} {k : Key} (h : ∀ a ∈ l, Keeps (f a) k) : Keeps (each l f) k := by
  intro s
  exact run_each_keeps (fun t => t.o k = s.o k) l f (fun a ha t ht => (h a ha t).trans ht) s rfl
theorem Keeps.accept (src : Src) (tag : Nat) (inp : Input) (k : Key) (h : k ≠ R.seqNo) : Keeps (accept src tag inp) k :=
  fun s => (accept_keeps src tag inp s).1 k h
theorem Keeps.sense (inp : Input) (k : Key) (h : k ≠ R.seqNo) : Keeps (sense inp) k := Keeps.accept _ _ _ _ h

/-! ## A script that leaves some part of the state alone (`State.active`, `State.d`, …) -/

/-- The script leaves the part f of the state as it was. -/
def KeepsPart {α : Type} (f : State → α) (sc : Script) : Prop := ∀ s, f (sc.run s) = f s

theorem KeepsPart.skip {α : Type} {f : State → α} : KeepsPart f .skip := fun _ => rfl
theorem KeepsPart.seq {α : Type} {f : State → α} {a b : Script} (ha : KeepsPart f a) (hb : KeepsPart f b) :
    KeepsPart f (.seq a b) := fun s => (hb _).trans (ha s)
theorem KeepsPart.dyn {α : Type} {g : State → α} {f : State → Script} (h : ∀ s, KeepsPart g (f s)) : KeepsPart g (.dyn f) :=
  fun s => h s s
theorem KeepsPart.nil {α : Type} {f : State → α} : KeepsPart f (all []) := fun _ => rfl
theorem KeepsPart.cons {α : Type} {f : State → α} {a : Script} {l : List Script} (ha : KeepsPart f a)
    (hb : KeepsPart f (all l)) : KeepsPart f (all (a :: l)) := fun s => (hb _).trans (ha s)
theorem KeepsPart.onlyIf {α : Type} {f : State → α} {c : Bool} {a : Script} (ha : KeepsPart f a) :
    KeepsPart f (onlyIf c a) := by
  unfold Machine.onlyIf; split; exact ha; exact KeepsPart.skip
theorem KeepsPart.draw {α : Type} {g : State → α} {w : Nat} {f : Nat → Script} (h₀ : ∀ h, KeepsPart g (upd h))
    (h : ∀ n, KeepsPart g (f n)) : KeepsPart g (draw w f) := by
  unfold Machine.draw; exact KeepsPart.dyn fun s => KeepsPart.seq (h₀ _) (h _)
theorem KeepsPart.each {α β : Type} {g : State → β} {l : List α} {f : α → Script} (h : ∀ a ∈ l, KeepsPart g (f a)) :
    KeepsPart g (each l f) := by
  intro s
  exact run_each_keeps (fun t => g t = g s) l f (fun a ha t ht => (h a ha t).trans ht) s rfl

/-! ## The end of a command -/

/-- A command whose condition holds, from what its script leaves at the hand-over of its items. -/
theorem does_of {i : Instr} {s : State} {c : State → Bool} {sc : Script} {P : State → Prop}
    (he : exec i s = doesIf c sc s) (hc : c s.fresh = true) (hp : P (flush.run (sc.run s.fresh))) : Does i s P :=
  ⟨_, he.trans (doesIf_eq hc sc), hp⟩

/-- The same for the commands that move the sample counter. -/
theorem moves_of {i : Instr} {s : State} {c : State → Bool} {n : State → Fin 501} {sc : Script} {P : State → Prop}
    (he : exec i s = movesIf c n sc s) (hc : c s = true) (hp : P (flush.run (sc.run { s with next := n s }.fresh))) :
    Does i s P :=
  ⟨_, he.trans (movesIf_eq hc sc), hp⟩

/-- The hand-over of the items leaves every register but the queues' counters and the sequence number. -/
theorem flush_o (u : State) (k : Key) (h : isQCount k = false) (h' : k ≠ R.seqNo) : (flush.run u).o k = u.o k :=
  (flush_effect u).1 k h h'

/-- A frame from what the script does. -/
theorem within_of {sc : Script} {s : State} {l : List (Key × Int)} {may : List (Key → Prop)}
    (hr : ∀ e ∈ l, (sc.run s.fresh).o e.1 = norm e.1 e.2)
    (hl : ∀ e ∈ l, isQCount e.1 = false ∧ e.1 ≠ R.seqNo)
    (ho : ∀ k, k ∉ l.map Prod.fst → (∀ p ∈ may, ¬ p k) → k ≠ R.seqNo → (sc.run s.fresh).o k = s.o k)
    (ha : (sc.run s.fresh).active = s.active) (hs : (sc.run s.fresh).shadow = s.shadow) :
    Within l may s (flush.run (sc.run s.fresh)) := by
  have h := flush_effect (sc.run s.fresh)
  refine ⟨fun e he => ?_, fun k h1 h2 h3 h4 => ?_, ⟨h.2.2.1.trans ha, h.2.2.2.1.trans hs, by simp, by simp⟩⟩
  · rw [h.1 _ (hl e he).1 (hl e he).2]; exact hr e he
  · rw [h.1 _ h3 h4]; exact ho k h1 h2 h4

/-- The change of a part of a command. -/
theorem change_of {u s : State} {l : List (Key × Int)} {f : Data → Data}
    (h₁ : u.next = s.next) (h₂ : u.pending = s.pending) (hr : ∀ e ∈ l, u.o e.1 = norm e.1 e.2)
    (ho : ∀ k, k ∉ l.map Prod.fst → u.o k = s.o k) (ha : u.active = s.active) (hs : u.shadow = s.shadow)
    (hq : u.queues = s.queues) (hd : u.d = f s.d) : Change l f s u :=
  ⟨hr, ho, ha, hs, h₁, h₂, hq, hd⟩

end Sys2Proof.Machine
end

