-- ==== Sys2Proof/Laws/Writes.lean ====
section
/-!
SUPPORT. The commands that are writes to one object: what an accepted write does, what a refused one does, and what a
write does at its stamp.
-/

namespace Sys2Proof.Machine

/-- Acceptance of a write that is mirrored (R35, R45, R313). -/
theorem accept_waits (src : Src) (k : Key) (v : Int) (s : State) (hr : s.d.raised = []) :
    Waits src k v s (flush.run ((accept src 0 (.write src k v)).run s.fresh)) := by
  have h := accept_keeps src 0 (.write src k v) s.fresh
  refine effect_of_state (by simp) (by simp) ?_ ?_ h.2.2.1 h.2.2.2.1 h.2.2.2.2.1 ?_ ?_ ?_ ?_ ?_ ?_ ?_
  · simp only [List.forall_mem_cons, List.not_mem_nil, false_imp_iff, implies_true, and_true]
    rw [h.2.1, norm_hidden _ _ (by decide)]; simp
  · intro k hk
    simp at hk
    rw [h.1 k hk]; simp
  · rw [h.2.2.2.2.2]
    show s.takes src 0 (.write src k v) s.fresh.d = _
    simp only [State.takes, fresh_d, hr, List.append_nil]
  · simp; decide
  · simp; decide
  · simp; decide
  · simp; decide
  · simp; decide
  · right; simp [hr]

/-- Acceptance of a write that acts on this unit alone (R314). -/
theorem acceptLocal_waits (src : Src) (k : Key) (v : Int) (s : State) (hr : s.d.raised = []) :
    WaitsHere src k v s (flush.run ((acceptLocal src 0 (.write src k v)).run s.fresh)) := by
  unfold acceptLocal
  refine effect_of_state (by simp) (by simp) ?_ ?_ ?_ ?_ ?_ ?_ ?_ ?_ ?_ ?_ ?_ ?_
  · simp only [List.forall_mem_cons, List.not_mem_nil, false_imp_iff, implies_true, and_true, run_dyn, run_all_cons,
      run_all_nil]
    rw [bump_o, if_pos (by decide)]; rfl
  · intro k hk
    simp at hk
    simp [bump_o, hk]
  · simp
  · simp
  · simp
  · simp [hr]; rfl
  · simp; decide
  · simp; decide
  · simp; decide
  · simp; decide
  · simp; decide
  · right; simp [hr]

/-- A command that is a write to one object, where the write is accepted. -/
theorem row_accepted {src : Src} {k : Key} {v : Int} {s : State} {c : Instr} (he : exec c s = writeRow src k v s)
    (ha : Accepts src k v s) {P : State → Prop} (hp : P (flush.run ((takeWrite src 0 k v).run s.fresh))) : Does c s P := by
  refine does_of (c := State.serves) he ?_ ?_
  · exact ha.serves
  · have h1 : s.fresh.keyRefusal src k = none := ha.object
    have h2 : s.fresh.valueRefusal k v = none := ha.value
    unfold tryWrite
    simp only [run_dyn, h1, h2]
    exact hp

/-- The same where the value is refused on an object that may be written. -/
theorem row_refused {src : Src} {k : Key} {v : Int} {s : State} {c : Instr} {w : Why} (he : exec c s = writeRow src k v s)
    (hs : s.serves = true) (hk : s.keyRefusal src k = none) (hv : s.valueRefusal k v = some w) {P : State → Prop}
    (hp : P (flush.run ((Script.seq (recordRefusal src k w) (send (.refusedWrite src w.1 w.2.1))).run s.fresh))) :
    Does c s P := by
  refine does_of (c := State.serves) he ?_ ?_
  · exact hs
  · have h1 : s.fresh.keyRefusal src k = none := hk
    have h2 : s.fresh.valueRefusal k v = some w := hv
    unfold tryWrite
    simp only [run_dyn, h1, h2]
    exact hp

theorem row_waits {src : Src} {k : Key} {v : Int} {s : State} {c : Instr} (he : exec c s = writeRow src k v s)
    (hr : s.d.raised = []) (hk : k ≠ R.swapReq) (hu : unitLocal k = false) (ha : Accepts src k v s) :
    Does c s (Waits src k v s) := by
  refine row_accepted he ha ?_
  unfold takeWrite
  simp only [run_dyn, hk, decide_false, Bool.false_and, Bool.false_eq_true, if_false, hu]
  exact accept_waits _ _ _ _ hr

theorem row_waits_here {src : Src} {k : Key} {v : Int} {s : State} {c : Instr} (he : exec c s = writeRow src k v s)
    (hr : s.d.raised = []) (hk : k ≠ R.swapReq) (hu : unitLocal k = true) (ha : Accepts src k v s) :
    Does c s (WaitsHere src k v s) := by
  refine row_accepted he ha ?_
  unfold takeWrite
  simp only [run_dyn, hk, decide_false, Bool.false_and, Bool.false_eq_true, if_false, hu, if_true]
  exact acceptLocal_waits _ _ _ _ hr

/-- The objects whose writes act on one unit alone (R314). -/
theorem unitLocal_other (k : Key) (hk : k ∉ [R.ledgerAck, R.ledgerRead, R.snapshotReq, R.driftClear, R.meas7Extend,
    R.resetReq, R.alarmClear, R.lcTarget, R.lcToken]) : unitLocal k = false := by
  unfold unitLocal
  simpa using hk

/-- A write that is a command of its own, at its stamp. -/
theorem applied_of {src : Src} {k : Key} {v : Int} {sc : Script} {s : State} {P : State → Prop}
    (h : commandWrite src k v = some sc) (hp : P (sc.run s)) : P (applied src k v s) := by
  have : applied src k v s = sc.run s := by
    show (applyWrite src k v).run s = _
    unfold applyWrite
    rw [h]
  rw [this]; exact hp

end Sys2Proof.Machine
end

