-- ==== Sys2Proof/WellFormed.lean ====
section
/-!
DEFINITION. Which commands are well formed: operands whose type is wider than the field that the spec gives them stay
within that field. An ill-formed command has a meaning all the same; no message of the part can carry it.
-/

namespace Sys2Proof

/-- The LOT header's fields (spec/02_object_catalogue.md R47). -/
def LotHdr.wf (h : LotHdr) : Bool :=
  decide (h.service < 16) && decide (h.tag < 256) && decide (h.index < 65536) && decide (h.sub < 256)
    && decide (h.seg < 256) && decide (h.length < 65536)

/-- A CAN frame (spec/13_can_fd.md R276): its identifier's width, its DLC, and the bytes that the DLC stands for. -/
def CanFrame.wf (f : CanFrame) : Bool :=
  let fdLen := [12, 16, 20, 24, 32, 48, 64].getD (f.dlc - 9) 0
  let len := if f.rtr then 0 else if f.dlc ≤ 8 then f.dlc else if f.fdf then fdLen else 8
  decide (f.id < (if f.ide then 2 ^ 29 else 2 ^ 11)) && decide (f.dlc < 16) && decide (f.data.length = len)
    && !(f.fdf && f.rtr) && (f.fdf || !(f.brs || f.esi))

/-- An expander's response (spec/05_output_sessions_switchgear.md R119). -/
def SglResp.wf (r : SglResp) : Bool :=
  decide (r.addr < 256) && decide (r.aux < 65536) && decide (r.cur < 256) && decide (r.crc < 65536)

/-- A stamp: a frame number and a sample of it (spec/01_islands_and_frames.md R17, R19, R20). -/
def stampOk (frame sample : Nat) : Bool := decide (frame < 2 ^ 32) && decide (sample < 500)

/-- The bits that a control sample latches (spec/06_converter_loops.md R126, R127): inputs below 264, at most 50 bits of
each. -/
def bitsOk (sd : List (Nat × Nat)) : Bool := sd.all fun x => decide (x.1 < 264) && decide (x.2 < 2 ^ 50)

/-- A grid sample has three voltages and four currents (spec/08_metrology.md R181). -/
def GridSample.wf (x : GridSample) : Bool := decide (x.uV.length = 3) && decide (x.uI.length = 4)

/-- A mask of `w` bits. -/
def maskOk (w m : Nat) : Bool := decide (m < 2 ^ w)

/-- The well-formed commands. Operands that their type bounds need no check. -/
def Instr.wellFormed : Instr → Bool
  | .controlSample sd _ _ => bitsOk sd
  | .crossingArrival _ frame sample _ => stampOk frame sample
  | .ptpMessage port domain _ => decide (1 ≤ port ∧ port ≤ 2) && decide (domain < 128)
  | .lotReadReq _ h => h.wf
  | .lotWriteReq _ h data => h.wf && decide (data.length ≤ 4096)
  | .lotSegData _ h data => h.wf && decide (data.length ≤ 4096)
  | .lotSegAck _ h => h.wf
  | .lotAbort _ h => h.wf
  | .lotUnknownService _ h => h.wf
  | .lotSegmentTimeout _ tag => decide (tag < 256)
  | .lotLifetimeTimeout _ tag => decide (tag < 256)
  | .partitionVerdict _ tag _ => decide (tag < 256)
  | .partitionTimeout _ tag => decide (tag < 256)
  | .objectWrite _ index sub _ => decide (index < 65536) && decide (sub < 256)
  | .storeConfig _ val => maskOk 16 val
  | .restoreDefaults _ val => maskOk 16 val
  | .driftClear _ val => maskOk 16 val
  | .domainOff _ mask => maskOk 16 mask
  | .domainOn _ mask => maskOk 16 mask
  | .sglResponse _ _ r => r.wf
  | .ocEvent _ window => maskOk 16 window
  | .mtSample dc grid => decide (dc.length ≤ 24) && decide (grid.length ≤ 2) && grid.all GridSample.wf
  | .snapshotReq _ meter => maskOk 8 meter
  | .ledgerAck _ seq => maskOk 32 seq
  | .ledgerRead _ seq => maskOk 32 seq
  | .canFrameReceived _ f => f.wf
  | .canWake _ e => match e with | .frame f => f.wf | .dominant _ => true
  | .pairSample m _ => stampOk m.frame m.sample && decide (m.hashes.length = 12)
  | .pairMirror frame sample _ _ _ _ => stampOk frame sample
  | .pairChecksum frame sum _ => decide (frame < 2 ^ 32) && maskOk 32 sum
  | .pairMismatch frame sample mask _ => stampOk frame sample && maskOk 12 mask
  | .pairForward index sub _ _ _ => decide (index < 65536) && decide (sub < 256)
  | .sfCycle safeIn scoRead => maskOk 16 safeIn && maskOk 8 scoRead
  | .testPulse _ high => maskOk 16 high
  | .meas7Extend _ val => decide (val.length = 48)
  | .ownerAnchor _ val => decide (val.length = 97)
  | .lcToken _ val => decide (val.length = 96)
  | .injToken _ val => decide (val.length = 96)
  | .updData _ data => decide (data.length = 4096)
  | .qConsume _ _ n => maskOk 16 n
  | .qReset _ _ val => maskOk 16 val
  | .stReq _ mask => maskOk 16 mask
  | .stocktakeRunEnd _ sig => maskOk 64 sig
  | .injPermitS _ val => maskOk 32 val
  | _ => true

end Sys2Proof
end

