-- ==== Sys2Proof/Tests/Slice0.lean ====
section
/-!
SUPPORT. Tests: ill-formed commands that the check refuses, the manual's worked examples, and for every statement with
hypotheses a theorem `witness_<statement>` with concrete values that meet them together, clause by clause.
-/

namespace Sys2Proof.Tests

open Sys2Proof Sys2Proof.Machine

set_option Elab.async false

/-- The state after reset with some registers, some active copies, the sample counter and the other data as given. -/
def st (o a : List (Key × Int)) (n : Fin 501 := 0) (f : Data → Data := id) : State :=
  { State.reset with
    objs := o.foldl (fun m e => m.insert e.1 e.2) []
    active := a.foldl (fun m e => m.insert e.1 e.2) []
    next := n
    d := f State.reset.d }

/-! ## Ill-formed commands are refused

Each term differs from a well-formed one in the one field that its check is about. -/

/-- A well-formed header, frame, response and grid sample. -/
def hdr0 : LotHdr := ⟨15, true, false, false, 255, 65535, 255, 255, 65535⟩
def frame0 : CanFrame := ⟨true, true, true, false, false, 9, 2 ^ 29 - 1, List.replicate 12 0, 0⟩
def resp0 : SglResp := ⟨255, 65535, 255, 65535⟩
def msg0 : SampleMsg := ⟨2 ^ 32 - 1, 499, List.replicate 12 0, true, 0, 0, 0⟩

theorem test_wellFormed_accepts :
    [Instr.controlSample [(263, 2 ^ 50 - 1)] true false, .crossingArrival true (2 ^ 32 - 1) 499 (.pilot 0 0),
     .ptpMessage 2 127 (.followUp 0), .lotReadReq .mailbox hdr0, .lotWriteReq .mailbox hdr0 (List.replicate 4096 0),
     .sglResponse 0 0 resp0, .mtSample [] [⟨0, [1, 2, 3], [1, 2, 3, 4]⟩], .canFrameReceived 0 frame0,
     .pairSample msg0 ⟨0, 0⟩, .pairChecksum 0 (2 ^ 32 - 1) ⟨0, 0⟩, .ownerAnchor .firmware (List.replicate 97 0),
     .stocktakeRunEnd 0 (2 ^ 64 - 1), .qReset .firmware 63 65535, .commit .firmware 0].all Instr.wellFormed = true := by
  decide +kernel

theorem test_wellFormed_lot :
    [{ hdr0 with service := 16 }, { hdr0 with tag := 256 }, { hdr0 with index := 65536 }, { hdr0 with sub := 256 },
     { hdr0 with seg := 256 }, { hdr0 with length := 65536 }].all (fun h => !h.wf && [Instr.lotReadReq .mailbox h,
      .lotWriteReq .mailbox h [], .lotSegData .mailbox h [], .lotSegAck .mailbox h, .lotAbort .mailbox h,
      .lotUnknownService .mailbox h].all fun c => !c.wellFormed) = true
    ∧ [Instr.lotWriteReq .mailbox hdr0 (List.replicate 4097 0), .lotSegData .mailbox hdr0 (List.replicate 4097 0),
       .lotSegmentTimeout .mailbox 256, .lotLifetimeTimeout .mailbox 256, .partitionVerdict .mailbox 256 .writeOk,
       .partitionTimeout .mailbox 256].all (fun c => !c.wellFormed) = true := by decide +kernel

theorem test_wellFormed_can :
    [{ frame0 with id := 2 ^ 29 }, { frame0 with ide := false, id := 2 ^ 11 }, { frame0 with dlc := 16 },
     { frame0 with data := [] }, { frame0 with rtr := true, data := [] }, { frame0 with fdf := false, data := List.replicate 8 0 },
     { frame0 with fdf := false, brs := false, esi := true, data := List.replicate 8 0 }].all
      (fun f => !f.wf && !(Instr.canFrameReceived 0 f).wellFormed && !(Instr.canWake 0 (.frame f)).wellFormed) = true := by
  decide +kernel

theorem test_wellFormed_samples :
    [Instr.controlSample [(264, 0)] true false, .controlSample [(0, 2 ^ 50)] true false,
     .crossingArrival true (2 ^ 32) 0 (.pilot 0 0), .crossingArrival true 0 500 (.pilot 0 0),
     .ptpMessage 0 0 (.followUp 0), .ptpMessage 3 0 (.followUp 0), .ptpMessage 1 128 (.followUp 0),
     .sglResponse 0 0 { resp0 with addr := 256 }, .sglResponse 0 0 { resp0 with aux := 65536 },
     .sglResponse 0 0 { resp0 with cur := 256 }, .sglResponse 0 0 { resp0 with crc := 65536 },
     .mtSample (List.replicate 25 ⟨0, 0, 0⟩) [], .mtSample [] (List.replicate 3 ⟨0, [0, 0, 0], [0, 0, 0, 0]⟩),
     .mtSample [] [⟨0, [0, 0], [0, 0, 0, 0]⟩], .mtSample [] [⟨0, [0, 0, 0], [0, 0, 0]⟩],
     .sfCycle 65536 0, .sfCycle 0 256, .testPulse 0 65536, .ocEvent 0 65536, .stocktakeRunEnd 0 (2 ^ 64)].all
      (fun c => !c.wellFormed) = true := by decide +kernel

theorem test_wellFormed_pair :
    [Instr.pairSample { msg0 with frame := 2 ^ 32 } ⟨0, 0⟩, .pairSample { msg0 with sample := 500 } ⟨0, 0⟩,
     .pairSample { msg0 with hashes := [] } ⟨0, 0⟩, .pairMirror 0 500 0 .firmware (.pilot 0 0) ⟨0, 0⟩,
     .pairChecksum (2 ^ 32) 0 ⟨0, 0⟩, .pairChecksum 0 (2 ^ 32) ⟨0, 0⟩, .pairMismatch 0 500 0 ⟨0, 0⟩, .pairMismatch 0 0 4096 ⟨0, 0⟩,
     .pairForward 65536 0 .firmware 0 ⟨0, 0⟩, .pairForward 0 256 .firmware 0 ⟨0, 0⟩].all (fun c => !c.wellFormed) = true := by
  decide +kernel

theorem test_wellFormed_writes :
    [Instr.objectWrite .firmware 65536 0 [], .objectWrite .firmware 0 256 [], .storeConfig .firmware 65536,
     .restoreDefaults .firmware 65536, .driftClear .firmware 65536, .domainOff .firmware 65536, .domainOn .firmware 65536,
     .snapshotReq .firmware 256, .ledgerAck .firmware (2 ^ 32), .ledgerRead .firmware (2 ^ 32), .meas7Extend .firmware [],
     .ownerAnchor .firmware [], .lcToken .firmware [], .injToken .firmware [], .updData .firmware [], .qConsume .firmware 0 65536,
     .qReset .firmware 0 65536, .stReq .firmware 65536, .injPermitS .firmware (2 ^ 32)].all (fun c => !c.wellFormed) = true := by
  decide +kernel

/-! ## Worked examples of the manual

Expected figures are the manual's own. -/

/-- The check value of R120. -/
theorem test_crc16 : crc16 [0x31, 0x32, 0x33, 0x34, 0x35, 0x36, 0x37, 0x38, 0x39] = 0x29B1 := by decide +kernel

/-- COMMIT_RESULT words of the example of chapter 1: rejected by rule 53h on 2010h.0A, and accepted. -/
theorem test_commit_result : resultWord 2 0x53 0x20100A 0x100001 = 0x805320100A100001
    ∧ resultWord 1 0 0 0x100003 = 0x4000000000100003 := by decide +kernel

/-- The headers of the example transaction of chapter 2: the first and last segments and the final answer. -/
theorem test_lot_header :
    hdrOf [0x34, 0x17, 0x10, 0x60, 0x01, 0x00, 0x82, 0x00] = ⟨3, false, true, false, 0x17, 0x6010, 1, 0, 130⟩
    ∧ hdrOf [0x58, 0x17, 0x10, 0x60, 0x01, 0x02, 0x12, 0x00] = ⟨5, true, false, false, 0x17, 0x6010, 1, 2, 18⟩
    ∧ hdrBytes ⟨4, true, false, false, 0x17, 0x6010, 1, 2, 130⟩ = [0x48, 0x17, 0x10, 0x60, 0x01, 0x02, 0x82, 0x00] := by
  decide +kernel

/-- The mirror read of the example of chapter 2: 2,412,350 mA reads 24,124. -/
theorem test_mirror_tie : ((st [(R.outGrantI 5, 2412350)] []).readBytes (R.outGrantI 5) false true).1
    = valueBytes .u16 24124 := by decide +kernel

/-- The modules of the first example of chapter 4 (frame 000F4266h). -/
def kestrelMods : List ShMod :=
  (upTo 48).map fun m =>
    { m := m, key := modKey 1000038 m, offered := m < 10, only := none,
      reach := (if m < 6 then [0] else []) ++ (if 5 ≤ m ∧ m < 8 then [1] else []) ++ (if m = 4 ∨ (6 ≤ m ∧ m < 10) then [14] else []),
      p := 200000, i := 400000,
      hold := if m < 4 then some 0 else if m = 6 ∨ m = 7 then some 1 else if m = 8 ∨ m = 9 then some 14 else none,
      free := m = 4 ∨ m = 5, locked := false, dwell := false, auto := true, pinned := false,
      pen := if m = 4 then 4000 else if m = 5 then 1000 else 0 }

/-- Its outputs. -/
def kestrelOuts : List ShOut :=
  [⟨0, 5, outKey 1000038 0, 800000, 1200000, 960000, 0, false⟩, ⟨1, 3, outKey 1000038 1, 750000, 700000, 525000, 0, false⟩,
   ⟨14, 3, outKey 1000038 14, 700000, 500000, 350000, 0, false⟩]

/-- Budget, targets, seed and auction of that example. -/
theorem test_shelver_example :
    (st [] [(R.importLimitW, 1400000), (R.auxReserveW, 35000), (R.gridEff, 31130)]).gridBudget = 1296767
    ∧ kestrelOuts.map (·.key) = [18, 19, 8]
    ∧ (let t := shTargets kestrelOuts 1796767
       let seed := shSeed 20000 kestrelMods kestrelOuts t
       let won := shAuction 64 20000 1000 40000 kestrelMods kestrelOuts t seed
       [0, 1, 14].map (targetOf t) = [960000, 486767, 350000]
       ∧ seed.take 10 = [0, 0, 0, 0, 255, 0, 1, 1, 14, 14]
       ∧ won.1.take 10 = [0, 0, 0, 0, 0, 1, 1, 1, 14, 14]
       ∧ won.2.getD 4 0 = 325068 ∧ won.2.getD 5 0 = 327068) := by decide +kernel

/-- The old and new weights of the second example of chapter 4. -/
theorem test_weights : weightsOf 0 [(20, 200000), (21, 266667)] = [(20, 14044), (21, 18724)]
    ∧ weightsOf 0 [(21, 266667), (22, 266667)] = [(21, 16384), (22, 16384)] := by decide +kernel

/-- OUT4's contactors of the example of chapter 5 lie on expander 7. -/
theorem test_switchgear_place : outExp 4 = 7 ∧ outCoil 4 0 = 0 ∧ outCoil 4 1 = 1 := by decide +kernel

/-- The leg of the example of chapter 6. -/
def kestrelLeg : Coef :=
  ⟨262206764, 6508191, -255698573, -329708778, 61273322, 268435456, 268435456, 5368709, 263066747, 5368709, 263066747⟩

/-- Its coefficients load, one whose zero condition fails does not, and a wrong CHECK is told from it. -/
theorem test_coefficients : coefStatus kestrelLeg (crc32c (kestrelLeg.list.flatMap bytes4)) = 1
    ∧ coefStatus kestrelLeg (crc32c (kestrelLeg.list.flatMap bytes4) + 1) = 2
    ∧ (let c := { kestrelLeg with a2 := 61273321 }; coefStatus c (crc32c (c.list.flatMap bytes4))) = 3 := by decide +kernel

/-- Its first sample: fo is the 750 V of the link over 1,000 V. -/
theorem test_first_sample : (comp kestrelLeg 13421773 0 0 (fun _ => 0) 201326592 5368709 263066747 5368709 263066747).u
    = 214436930 := by decide +kernel

/-- Its PWM edges: high from tick 4,423 to tick 35,976 inclusive. -/
theorem test_pwm_edges : (let e := (pwmEdges 48 0 40000 214436930 400 200).1; (e.hRise, e.hFall - 1)) = (4423, 35976) := by
  decide +kernel

/-- The delays of PM9 in the first example of chapter 7 (FRAME_NO mod 4 = 1). -/
theorem test_carrier_delays :
    (let s := st [(R.phaseNow 9, 3333)] [(R.carrierK 36, 100), (R.carrierK 37, 100), (R.carrierK 38, 100), (R.carrierK 39, 100), (R.rotate 9, 1)]
     [37, 38, 39, 36].map (s.legDelay 1)) = [3333, 13333, 23333, 33333] := by decide +kernel

/-- The two sums of the first example of chapter 8, into registers of OUT7's meter. -/
theorem test_energy_example :
    (let s := (accumulate (R.mImp 7) (R.mResImp 7) 89455875000000000000 (fun _ => .skip)).run
        (st [(R.mImp 7, 41225118), (R.mResImp 7, 26000000000000000)] [])
     (s.o (R.mImp 7), s.o (R.mResImp 7))) = (41228225, 275000000000000)
    ∧ (let s := (accumulate (R.mExp 7) (R.mResExp 7) 89258450000000000000 (fun _ => .skip)).run (st [(R.mExp 7, 2030447)] [])
     (s.o (R.mExp 7), s.o (R.mResExp 7))) = (2033546, 7250000000000000) := by decide +kernel

/-- The width of the second example of chapter 8: 833 impulses in 1 s, and a width of 30 ms asked for. -/
theorem test_pulse_width :
    ((pulseWidths 8000).run (st [(R.puCnt 0, 833)] [(R.pulseWidthUs 0, 30000)])).o (R.puW 0) = 600 := by decide +kernel

/-- The rest correction of the example of chapter 11: 640,000 mV between 628,000 and 644,000 is 17.50 %. -/
theorem test_ocv_example :
    (let s := st [(R.bsV 0, 640000), (R.bsCInUse 0, 520000)]
       [(R.ocv 0 0, 600000), (R.ocv 0 1, 628000), (R.ocv 0 2, 644000), (R.ocv 0 10, 700000)]
     s.ocvCharge 0) = some (520000 * 3600000 * 1750 / 10000) := by decide +kernel

/-- The frame of the example of chapter 14: its length, its CRC, and half cycles 14, 15 and 22 (c0, c8 and c1). -/
theorem test_mpl_frame : (mplFrame 17 0 1 [0x5A]).length = 78
    ∧ ofMsb ((mplMessage 17 0 1 [0x5A]).drop 18) = 0xBD
    ∧ (convolve 0 [false, true, false, false, false, true]) = [false, false, true, true, true, false, true, true, true, true, true, true]
    ∧ [14, 15, 22].map (fun i => (mplFrame 17 0 1 [0x5A]).getD i true) = [false, true, false] := by decide +kernel

/-- The same frame with block half cycles 30 to 35 erased still decodes, and shows them. -/
theorem test_mpl_erasures :
    (let x := mplSee ((upTo 78).map fun i => if 44 ≤ i ∧ i < 50 then none else some ((mplFrame 17 0 1 [0x5A]).getD i false))
     (x.valid, x.erased, x.touched, x.msg.map fun m => (m.1, m.2.1, ofMsb m.2.2))) = (true, 6, true, some (17, 0, 0x5A)) := by
  decide +kernel

/-- The response figures of chapters 16 (emergency stop) and 19 (over-voltage), with 16 outputs. -/
theorem test_response_times :
    (let s := responseTimes.run (st [(R.sdclkActive, 50)] ((upTo 16).map (fun k => (R.outletType k, 1)) ++
       (upTo 16).map (fun k => (R.ovFiltUs k, 150)) ++ [(R.siFunc 0, 1), (R.siFunc 1, 1), (R.siPair 0, 1), (R.siTp 0, 0), (R.siTp 1, 1)]))
     (s.o R.tCycUs, s.o R.respEstopUs, s.o R.respOvUs)) = (236, 1796, 395) := by decide +kernel

/-- The wrap of SEQ in the example of chapter 18: 1 is newer than FFFFFFFFh. -/
theorem test_folio_newer : newerA 1 0xFFFFFFFF = true ∧ newerA 0xFFFFFFFF 1 = false := by decide +kernel

/-- FIPS 180-4's example for SHA-384, "abc". -/
theorem test_sha384 : sha384 [0x61, 0x62, 0x63] = beBytes 48
    0xcb00753f45a35e8bb5a03d699ac65007272c32ab0eded1631a8b605a43ff5bed8086072ba1e7cc2358baeca134c825a7 := by decide +kernel

/-! ## Single steps -/

/-- An empty queue idles. -/
theorem test_step_idles : step State.reset = .next State.reset := rfl

/-- A command at the front is taken from the queue: CONTROL_SAMPLE before the island has started does nothing else. -/
theorem test_step_takes_the_front :
    (match step { State.reset with pending := [.controlSample [] true false, .shelverFrame] } with
     | .next t => decide (t.pending = [.shelverFrame] ∧ t.objs = [] ∧ t.active = [])
     | _ => false) = true := by decide +kernel

/-- No row of the table has bits. -/
theorem test_no_words : decodeTableWord 32 0 = none := rfl

/-- A state beside reset that meets the invariant: registers and a copy away from their defaults, a command waiting. -/
theorem witness_StepKeepsInvariant :
    ({ st [(R.startPhase, 7), (R.now, 5000)] [(R.mplMode, 1)] 3 with pending := [.shelverFrame] } : State).Inv :=
  ⟨⟨by decide +kernel, by decide +kernel⟩, ⟨by decide +kernel, by decide +kernel⟩, ⟨by decide +kernel, by decide +kernel⟩,
   by decide +kernel, by decide +kernel, by decide +kernel⟩

/-! ## Hypotheses that are met

Each conjunct of a theorem lists values and the hypotheses of one clause, or of several, of the statement in its name. -/

theorem witness_SamplesAndFrames :
  (let s : State := st [(R.startPhase, 7)] [] 3; 7 ≤ s.o R.startPhase ∧ s.next.val < 500 ∧ s.o R.inGap ≠ 1) ∧
  (let s : State := st [(R.startPhase, 7)] [] 500; 7 ≤ s.o R.startPhase ∧ s.next.val = 500) ∧
  (let s : State := st [(R.startPhase, 7)] []; let u : State := st [] []; 7 ≤ s.o R.startPhase ∧ u.o R.inGap ≠ 1) ∧
  (let s : State := st [(R.startPhase, 7)] [] 490; 7 ≤ s.o R.startPhase ∧ s.next.val = 490 ∧ s.o R.snapTaken ≠ 1 ∧ s.o R.inGap ≠ 1) := by decide +kernel

theorem witness_StampsAndTheirArrival :
  (let frame : Nat := 0; let sample : Nat := 20; let s : State := st [(R.caRun, 1)] [] 3; s.o R.caRun = 1 ∧ sample < 500 ∧ s.d.raised = [] ∧ 0 < s.stampAhead frame sample) ∧
  (let frame : Nat := 0; let sample : Nat := 20; let s : State := st [(R.caRun, 1)] [] 30; s.o R.caRun = 1 ∧ sample < 500 ∧ s.d.raised = [] ∧ s.stampAhead frame sample ≤ 0) := by decide +kernel

theorem witness_StampsFollowTheirOrder :
  (let l : List Stamped := [⟨1,2,3,0,5,9,.firmware,.gridImport 5⟩, ⟨1,2,0,1,5,8,.can 1,.gridImport 5⟩, ⟨1,2,0,0,5,7,.can 0,.gridImport 6⟩]; (∀ x ∈ l, x.inst < 16 ∧ x.tag < 256 ∧ x.seq < 4294967296)) := by decide +kernel

theorem witness_HandoverStepConditionsMet :
  (let e : HoSlot := 1; let h : Handover := ⟨1, 1, 2, 1, 1, -50000000, false, false, 1, 0⟩; let s : State := st [((R.nodeCnt h.inc), 200)] [] 0 (fun d => { d with handovers := [h, ⟨2, 5, 6, 3, 1, 0, false, false, 1, 0⟩] }); s.ho e = some h ∧ h.met = false ∧ h.inc < 48 ∧ h.k < 24 ∧ h.step = 1 ∧ 200 ≤ s.o (R.nodeCnt h.inc)) ∧
  (let e : HoSlot := 1; let h : Handover := ⟨1, 1, 2, 1, 2, -50000000, false, false, 1, 0⟩; let s : State := st [((R.expRead (selExp 1)), 2), ((R.expAux (selExp 1)), 65535), ((R.expPrev (selExp 1)), 65535)] [((R.reach 1 0), 1), ((R.reach 2 0), 1)] 0 (fun d => { d with handovers := [h, ⟨2, 5, 6, 3, 1, 0, false, false, 1, 0⟩] }); s.ho e = some h ∧ h.met = false ∧ h.inc < 48 ∧ h.k < 24 ∧ h.step = 2 ∧ s.selClosed2 h.inc h.k = true) ∧
  (let e : HoSlot := 1; let h : Handover := ⟨1, 1, 2, 1, 3, -50000000, false, false, 1, 0⟩; let s : State := st [((R.rampOn 1), 1), ((R.rampN 1), 0)] [] 0 (fun d => { d with handovers := [h, ⟨2, 5, 6, 3, 1, 0, false, false, 1, 0⟩] }); s.ho e = some h ∧ h.met = false ∧ h.inc < 48 ∧ h.k < 24 ∧ h.step = 3 ∧ s.rampDone h.k = true) ∧
  (let e : HoSlot := 1; let h : Handover := ⟨1, 1, 2, 1, 4, -50000000, false, false, 1, 0⟩; let s : State := st [((R.drainCnt h.out), 50)] [] 0 (fun d => { d with handovers := [h, ⟨2, 5, 6, 3, 1, 0, false, false, 1, 0⟩] }); s.ho e = some h ∧ h.met = false ∧ h.inc < 48 ∧ h.k < 24 ∧ h.step = 4 ∧ (50 ≤ s.o (R.drainCnt h.out) ∨ (h.fallback = true ∧ below2A (s.modI h.out) = true))) ∧
  (let e : HoSlot := 1; let h : Handover := ⟨1, 1, 2, 1, 5, -50000000, false, false, 1, 0⟩; let s : State := st [((R.expRead (selExp 2)), 2)] [((R.reach 1 0), 1), ((R.reach 2 0), 1)] 0 (fun d => { d with handovers := [h, ⟨2, 5, 6, 3, 1, 0, false, false, 1, 0⟩] }); s.ho e = some h ∧ h.met = false ∧ h.inc < 48 ∧ h.k < 24 ∧ h.step = 5 ∧ s.selOpen2 h.out h.k = true) := by decide +kernel

theorem witness_HandoverFailuresQuarantine :
  (let e : HoSlot := 1; let h : Handover := ⟨1, 1, 2, 1, 1, -50000000, false, false, 1, 0⟩; let s : State := st [] [] 0 (fun d => { d with handovers := [h, ⟨2, 5, 6, 3, 1, 0, false, false, 1, 0⟩] }); s.ho e = some h ∧ h.met = false ∧ h.k < 24 ∧ h.step = 1 ∧ h.inc < 48 ∧ 15000 ≤ s.usSince h.startNs) ∧
  (let e : HoSlot := 1; let h : Handover := ⟨1, 1, 2, 1, 2, -50000000, false, false, 1, 0⟩; let s : State := st [(R.pairRole, 0)] [] 0 (fun d => { d with handovers := [h, ⟨2, 5, 6, 3, 1, 0, false, false, 1, 0⟩] }); s.ho e = some h ∧ h.met = false ∧ h.k < 24 ∧ h.step = 2 ∧ h.inc < 48 ∧ 30000 ≤ s.usSince h.startNs ∧ s.d.raised = [] ∧ s.o R.pairRole = 0) ∧
  (let e : HoSlot := 1; let h : Handover := ⟨1, 1, 2, 1, 4, -50000000, false, false, 1, 0⟩; let s : State := st [] [] 0 (fun d => { d with handovers := [h, ⟨2, 5, 6, 3, 1, 0, false, false, 1, 0⟩] }); s.ho e = some h ∧ h.met = false ∧ h.k < 24 ∧ h.step = 4 ∧ h.out < 48 ∧ h.fallback = false ∧ 20000 ≤ s.usSince h.startNs) ∧
  (let e : HoSlot := 1; let h : Handover := ⟨1, 1, 2, 1, 4, -50000000, false, true, 1, 0⟩; let s : State := st [((R.chI 8), 5000)] [] 0 (fun d => { d with handovers := [h, ⟨2, 5, 6, 3, 1, 0, false, false, 1, 0⟩] }); s.ho e = some h ∧ h.met = false ∧ h.k < 24 ∧ h.step = 4 ∧ h.out < 48 ∧ h.fallback = true ∧ 30000 ≤ s.usSince h.startNs ∧ below2A (s.modI h.out) = false) ∧
  (let e : HoSlot := 1; let h : Handover := ⟨1, 1, 2, 1, 5, -50000000, false, false, 1, 0⟩; let s : State := st [] [] 0 (fun d => { d with handovers := [h, ⟨2, 5, 6, 3, 1, 0, false, false, 1, 0⟩] }); s.ho e = some h ∧ h.met = false ∧ h.k < 24 ∧ h.step = 5 ∧ h.out < 48 ∧ 20000 ≤ s.usSince h.startNs) := by decide +kernel

theorem witness_SiteTime :
  (let s : State := st [(R.timeSource, 2), (R.siteOff, 300000), (R.inGap, 0)] [] 500; s.next.val = 500 ∧ s.o R.inGap ≠ 1 ∧ 100000 < s.phaseErr.natAbs ∧ s.o R.timeSource ≠ 0 ∧ (∀ k, k < s.nOut → s.os k = osIdle ∨ s.os k = osEnded ∨ s.os k = osFault) ∧ (∀ n, n < s.nCh → s.cs n ≠ csClosed)) ∧
  (let port : Nat := 1; let domain : Nat := 0; let s : State := st [((R.islandState iNW), 2), (R.ptpSyncNs, 5), (R.srcLost, 0)] [(R.timeSourceOrder, 0x2000), (R.ptpPort, 1)]; (port : Int) = s.a R.ptpPort ∧ port ≠ 0 ∧ (domain : Int) = s.a R.ptpDomain ∧ s.island iNW = 2 ∧ s.injectsArg 175 2 = false ∧ s.timePick = 2 ∧ 0 ≤ s.o R.ptpSyncNs) ∧
  (let s : State := st [] []; s.injectsArg 175 3 = false) ∧
  (let src := (.ptp : TimeSrc); let s : State := st [(R.ptpSyncNs, 0), (R.now, 3000000000), (R.srcLost, 0)] []; bit (s.o R.srcLost) (srcOf src) = false ∧ s.timeLost src = true) := by decide +kernel

theorem witness_ShelverComputes :
  (let s : State := st [(R.caRun, 1)] [] 60; s.o R.caRun = 1 ∧ s.o R.shDone ≠ 1 ∧ s.o R.inGap ≠ 1 ∧ 25 ≤ s.sample ∧ s.sample ≤ 124 ∧ s.island iPL ≠ 0 ∧ s.island iPL ≠ 5) := by decide +kernel

theorem witness_DwellAndQuarantineEnd :
  (let m : Pm := 1; let s : State := st [((R.dwellEnd m), 5), (R.now, 5)] []; 0 ≤ s.o (R.dwellEnd m) ∧ s.o (R.dwellEnd m) ≤ s.o R.now) ∧
  (let m : Pm := 1; let s : State := st [((R.quarNs m), 0), ((R.quarCause m), 1), (R.now, 1000000000000)] []; 0 ≤ s.o (R.quarNs m) ∧ (s.o (R.quarCause m) = 1 ∨ s.o (R.quarCause m) = 2) ∧ s.o (R.quarCount m) < 3 ∧ s.a R.quarHoldUs ≤ s.usSince (s.o (R.quarNs m))) ∧
  (let m : Pm := 1; let u : State := st [((R.quarNs m), 0)] []; 0 ≤ u.o (R.quarNs m) ∧ u.selectorsOpen m = true ∧ below2A (u.modI m) = true) ∧
  (let m : Pm := 1; let u : State := st [((R.expAux (selExp 1)), 65535)] []; (u.selectorsOpen m = false ∨ below2A (u.modI m) = false)) := by decide +kernel

theorem witness_WritesAreStamped :
  (let src : Src := .partition; let g : Grp := 1; let s : State := st [(R.startPhase, 8)] []; s.d.raised = [] ∧ Accepts src (R.gCommit g) 1 s) ∧
  (let src : Src := .partition; let m : Pm := 1; let s : State := st [(R.startPhase, 8)] []; s.d.raised = [] ∧ Accepts src (R.quarClear m) 1 s) ∧
  (let src : Src := .partition; let v : Nat := 0x5354; let s : State := st [(R.startPhase, 8)] []; s.d.raised = [] ∧ Accepts src R.storeReq v s) ∧
  (let src : Src := .partition; let v : Nat := 0x4446; let s : State := st [(R.startPhase, 8)] []; s.d.raised = [] ∧ Accepts src R.restoreDefaults v s) ∧
  (let src : Src := .partition; let v : Nat := 64; let s : State := st [(R.startPhase, 8)] []; s.d.raised = [] ∧ Accepts src R.domainOff v s) ∧
  (let src : Src := .partition; let v : Nat := 64; let s : State := st [(R.startPhase, 8)] []; s.d.raised = [] ∧ Accepts src R.domainOn v s) ∧
  (let src : Src := .partition; let k : Out := 1; let s : State := st [(R.startPhase, 8)] []; s.d.raised = [] ∧ Accepts src (R.outStop k) 1 s) ∧
  (let src : Src := .partition; let k : Out := 1; let s : State := st [(R.startPhase, 8)] []; s.d.raised = [] ∧ Accepts src (R.faultClear k) 1 s) ∧
  (let src : Src := .partition; let m : Pm := 1; let s : State := st [(R.startPhase, 8)] []; s.d.raised = [] ∧ Accepts src (R.latchClear m) 1 s) ∧
  (let src : Src := .partition; let j : Fs := 1; let on : Bool := true; let s : State := st [(R.startPhase, 8)] []; s.d.raised = [] ∧ Accepts src (R.fsCmd j) (ofBool on) s) ∧
  (let src : Src := .partition; let j : Fs := 1; let s : State := st [(R.startPhase, 8)] []; s.d.raised = [] ∧ Accepts src (R.fsClear j) 1 s) ∧
  (let src : Src := .partition; let p : Port := 1; let b : Buf := 1; let s : State := st [(R.startPhase, 8)] []; s.d.raised = [] ∧ Accepts src (R.txbRequest (txb p b)) 1 s) ∧
  (let src : Src := .partition; let p : Port := 1; let b : Buf := 1; let s : State := st [(R.startPhase, 8)] []; s.d.raised = [] ∧ Accepts src (R.txbAbort (txb p b)) 1 s) ∧
  (let src : Src := .partition; let p : Port := 1; let s : State := st [(R.startPhase, 8)] []; s.d.raised = [] ∧ Accepts src (R.busoffRecover p) 1 s) ∧
  (let src : Src := .partition; let p : Port := 1; let s : State := st [(R.startPhase, 8)] []; s.d.raised = [] ∧ Accepts src (R.sleepReq p) 1 s) ∧
  (let src : Src := .partition; let p : Port := 1; let s : State := st [(R.startPhase, 8)] []; s.d.raised = [] ∧ Accepts src (R.wakeReq p) 1 s) ∧
  (let src : Src := .partition; let r : Fe := 1; let s : State := st [(R.startPhase, 8)] []; s.d.raised = [] ∧ Accepts src (R.feWriteReset r) 1 s) ∧
  (let src : Src := .partition; let s : State := st [(R.startPhase, 8)] []; s.d.raised = [] ∧ Accepts src R.bcastReq 1 s) ∧
  (let src : Src := .partition; let s : State := st [(R.startPhase, 8)] []; s.d.raised = [] ∧ Accepts src R.rejoin 1 s) ∧
  (let src : Src := .partition; let q : Fin 64 := 1; let n : Nat := 0; let s : State := st [(R.startPhase, 8)] []; s.d.raised = [] ∧ Accepts src (R.qConsume q) n s) ∧
  (let src : Src := .partition; let q : Fin 64 := 1; let v : Nat := 0x5152; let s : State := st [(R.startPhase, 8)] []; s.d.raised = [] ∧ Accepts src (R.qReset q) v s) ∧
  (let src : Src := .partition; let q : Fin 64 := 1; let s : State := st [(R.startPhase, 8)] []; s.d.raised = [] ∧ Accepts src (R.qFlagClear q) 1 s) :=
  ⟨⟨by decide +kernel, ⟨by decide +kernel, by decide +kernel, by decide +kernel⟩⟩,
   ⟨by decide +kernel, ⟨by decide +kernel, by decide +kernel, by decide +kernel⟩⟩,
   ⟨by decide +kernel, ⟨by decide +kernel, by decide +kernel, by decide +kernel⟩⟩,
   ⟨by decide +kernel, ⟨by decide +kernel, by decide +kernel, by decide +kernel⟩⟩,
   ⟨by decide +kernel, ⟨by decide +kernel, by decide +kernel, by decide +kernel⟩⟩,
   ⟨by decide +kernel, ⟨by decide +kernel, by decide +kernel, by decide +kernel⟩⟩,
   ⟨by decide +kernel, ⟨by decide +kernel, by decide +kernel, by decide +kernel⟩⟩,
   ⟨by decide +kernel, ⟨by decide +kernel, by decide +kernel, by decide +kernel⟩⟩,
   ⟨by decide +kernel, ⟨by decide +kernel, by decide +kernel, by decide +kernel⟩⟩,
   ⟨by decide +kernel, ⟨by decide +kernel, by decide +kernel, by decide +kernel⟩⟩,
   ⟨by decide +kernel, ⟨by decide +kernel, by decide +kernel, by decide +kernel⟩⟩,
   ⟨by decide +kernel, ⟨by decide +kernel, by decide +kernel, by decide +kernel⟩⟩,
   ⟨by decide +kernel, ⟨by decide +kernel, by decide +kernel, by decide +kernel⟩⟩,
   ⟨by decide +kernel, ⟨by decide +kernel, by decide +kernel, by decide +kernel⟩⟩,
   ⟨by decide +kernel, ⟨by decide +kernel, by decide +kernel, by decide +kernel⟩⟩,
   ⟨by decide +kernel, ⟨by decide +kernel, by decide +kernel, by decide +kernel⟩⟩,
   ⟨by decide +kernel, ⟨by decide +kernel, by decide +kernel, by decide +kernel⟩⟩,
   ⟨by decide +kernel, ⟨by decide +kernel, by decide +kernel, by decide +kernel⟩⟩,
   ⟨by decide +kernel, ⟨by decide +kernel, by decide +kernel, by decide +kernel⟩⟩,
   ⟨by decide +kernel, ⟨by decide +kernel, by decide +kernel, by decide +kernel⟩⟩,
   ⟨by decide +kernel, ⟨by decide +kernel, by decide +kernel, by decide +kernel⟩⟩,
   ⟨by decide +kernel, ⟨by decide +kernel, by decide +kernel, by decide +kernel⟩⟩⟩

theorem witness_ServiceWritesAreStamped :
  (let src : Src := .firmware; let s : State := st [(R.startPhase, 8), (R.lcState, 1), (R.vaultState, 1), (R.vaultAttr, 0x100), (R.vaultKeyType, 1), (R.vaultSlot, 7)] []; s.d.raised = [] ∧ Accepts src R.vaultCmd 1 s) ∧
  (let src : Src := .firmware; let s : State := st [(R.startPhase, 8), (R.lcState, 1), (R.vaultState, 1), (R.vaultAttr, 0x100), (R.vaultKeyType, 1), (R.vaultSlot, 7), ((R.stageState 7), 1)] []; s.d.raised = [] ∧ Accepts src R.vaultCmd 3 s) ∧
  (let src : Src := .firmware; let s : State := st [(R.startPhase, 8), (R.lcState, 1), (R.vaultState, 1), (R.vaultAttr, 0x100), (R.vaultKeyType, 1), (R.vaultSlot, 7), ((R.stageState 7), 1), ((R.stagePub 7), 9), (R.vaultLen, 22), (R.vaultData, (ofLe [0x30,20,0x30,18,2,0,2,0,2,0,2,0,2,0,0x30,6,0x30,0,3,2,0,9] : Nat))] []; s.d.raised = [] ∧ Accepts src R.vaultCmd 4 s) ∧
  (let src : Src := .firmware; let s : State := st [(R.startPhase, 8), (R.lcState, 1), (R.vaultState, 1), (R.vaultAttr, 0x100), (R.vaultKeyType, 1), (R.vaultSlot, 7), ((R.stageState 7), 3)] []; s.d.raised = [] ∧ Accepts src R.vaultCmd 5 s) ∧
  (let src : Src := .firmware; let s : State := st [(R.startPhase, 8), (R.lcState, 1), (R.vaultState, 1), (R.vaultAttr, 0x100), (R.vaultKeyType, 1), (R.vaultSlot, 7)] []; s.d.raised = [] ∧ Accepts src R.vaultCmd 7 s) ∧
  (let src : Src := .firmware; let s : State := st [(R.startPhase, 8), (R.lcState, 1), (R.vaultState, 1), (R.vaultAttr, 0x100), (R.vaultKeyType, 1), (R.vaultSlot, 7)] []; s.d.raised = [] ∧ Accepts src R.vaultCmd 8 s) ∧
  (let src : Src := .firmware; let s : State := st [(R.startPhase, 8), (R.lcState, 1), (R.vaultState, 1), (R.vaultAttr, 0x100), (R.vaultKeyType, 1), (R.vaultSlot, 1)] []; s.d.raised = [] ∧ Accepts src R.vaultCmd 9 s) ∧
  (let src : Src := .firmware; let s : State := st [(R.vaultSlot, 2), (R.startPhase, 8), (R.lcState, 1), (R.vaultState, 1), (R.vaultAttr, 0x100), (R.vaultKeyType, 1)] []; s.d.raised = [] ∧ Accepts src R.vaultCmd 6 s ∧ s.lc ≠ 3 ∧ s.o R.vaultSlot = 2) ∧
  (let src : Src := .firmware; let s : State := st [(R.startPhase, 8), (R.lcState, 1), (R.vaultState, 1), (R.vaultAttr, 0x100), (R.vaultKeyType, 1), (R.vaultSlot, 7)] []; s.d.raised = [] ∧ Accepts src R.updCmd 1 s) ∧
  (let src : Src := .firmware; let s : State := st [(R.startPhase, 8), (R.lcState, 1), (R.vaultState, 1), (R.vaultAttr, 0x100), (R.vaultKeyType, 1), (R.vaultSlot, 7), (R.updState, 1)] []; s.d.raised = [] ∧ Accepts src R.updCmd 2 s) ∧
  (let src : Src := .firmware; let s : State := st [(R.startPhase, 8), (R.lcState, 1), (R.vaultState, 1), (R.vaultAttr, 0x100), (R.vaultKeyType, 1), (R.vaultSlot, 7), (R.updState, 2)] []; s.d.raised = [] ∧ Accepts src R.updCmd 3 s) ∧
  (let src : Src := .firmware; let s : State := st [(R.startPhase, 8), (R.lcState, 1), (R.vaultState, 1), (R.vaultAttr, 0x100), (R.vaultKeyType, 1), (R.vaultSlot, 7), (R.updState, 3)] []; s.d.raised = [] ∧ Accepts src R.updCmd 4 s) ∧
  (let src : Src := .firmware; let s : State := st [(R.startPhase, 9), (R.lcState, 1), (R.vaultState, 1), (R.vaultAttr, 0x100), (R.vaultKeyType, 1), (R.vaultSlot, 7), (R.updState, 5)] []; s.d.raised = [] ∧ Accepts src R.updCmd 5 s) ∧
  (let src : Src := .firmware; let s : State := st [(R.startPhase, 8), (R.lcState, 1), (R.vaultState, 1), (R.vaultAttr, 0x100), (R.vaultKeyType, 1), (R.vaultSlot, 7), (R.updState, 1)] []; s.d.raised = [] ∧ Accepts src R.updCmd 6 s) ∧
  (let src : Src := .firmware; let m : Nat := 8; let s : State := st [(R.startPhase, 8), (R.lcState, 1), (R.vaultState, 1), (R.vaultAttr, 0x100), (R.vaultKeyType, 1), (R.vaultSlot, 7)] []; s.d.raised = [] ∧ Accepts src R.stReq m s) ∧
  (let src : Src := .firmware; let d : Fin 179 := 1; let s : State := st [(R.startPhase, 8), (R.lcState, 1), (R.vaultState, 1), (R.vaultAttr, 0x100), (R.vaultKeyType, 1), (R.vaultSlot, 7)] []; s.d.raised = [] ∧ Accepts src (R.injStart d) 1 s) ∧
  (let src : Src := .firmware; let d : Fin 179 := 1; let s : State := st [(R.startPhase, 8), (R.lcState, 1), (R.vaultState, 1), (R.vaultAttr, 0x100), (R.vaultKeyType, 1), (R.vaultSlot, 7)] []; s.d.raised = [] ∧ Accepts src (R.injStop d) 1 s) ∧
  (let src : Src := .firmware; let v : Nat := 1; let s : State := st [(R.startPhase, 8), (R.lcState, 1), (R.vaultState, 1), (R.vaultAttr, 0x100), (R.vaultKeyType, 1), (R.vaultSlot, 7)] []; s.d.raised = [] ∧ Accepts src R.injPermitS v s) ∧
  (let src : Src := .firmware; let x : List Byte := List.replicate 97 5; let s : State := st [(R.startPhase, 8), (R.lcState, 2), (R.vaultState, 1), (R.vaultAttr, 0x100), (R.vaultKeyType, 1), (R.vaultSlot, 7)] []; s.d.raised = [] ∧ x.length = (tyOf R.ownerAnchor).bytes ∧ Accepts src R.ownerAnchor (ofBytes (tyOf R.ownerAnchor) x) s) ∧
  (let src : Src := .firmware; let x : List Byte := List.replicate 4096 5; let s : State := st [(R.startPhase, 8), (R.lcState, 1), (R.vaultState, 1), (R.vaultAttr, 0x100), (R.vaultKeyType, 1), (R.vaultSlot, 7), (R.updState, 1)] []; s.d.raised = [] ∧ x.length = (tyOf R.updData).bytes ∧ Accepts src R.updData (ofBytes (tyOf R.updData) x) s) ∧
  (let src : Src := .firmware; let x : List Byte := List.replicate 96 5; let s : State := st [(R.startPhase, 8), (R.lcState, 1), (R.vaultState, 1), (R.vaultAttr, 0x100), (R.vaultKeyType, 1), (R.vaultSlot, 7)] []; s.d.raised = [] ∧ x.length = (tyOf R.injToken).bytes ∧ Accepts src R.injToken (ofBytes (tyOf R.injToken) x) s) :=
  ⟨⟨by decide +kernel, ⟨by decide +kernel, by decide +kernel, by decide +kernel⟩⟩,
   ⟨by decide +kernel, ⟨by decide +kernel, by decide +kernel, by decide +kernel⟩⟩,
   ⟨by decide +kernel, ⟨by decide +kernel, by decide +kernel, by decide +kernel⟩⟩,
   ⟨by decide +kernel, ⟨by decide +kernel, by decide +kernel, by decide +kernel⟩⟩,
   ⟨by decide +kernel, ⟨by decide +kernel, by decide +kernel, by decide +kernel⟩⟩,
   ⟨by decide +kernel, ⟨by decide +kernel, by decide +kernel, by decide +kernel⟩⟩,
   ⟨by decide +kernel, ⟨by decide +kernel, by decide +kernel, by decide +kernel⟩⟩,
   ⟨by decide +kernel, ⟨by decide +kernel, by decide +kernel, by decide +kernel⟩, by decide +kernel, by decide +kernel⟩,
   ⟨by decide +kernel, ⟨by decide +kernel, by decide +kernel, by decide +kernel⟩⟩,
   ⟨by decide +kernel, ⟨by decide +kernel, by decide +kernel, by decide +kernel⟩⟩,
   ⟨by decide +kernel, ⟨by decide +kernel, by decide +kernel, by decide +kernel⟩⟩,
   ⟨by decide +kernel, ⟨by decide +kernel, by decide +kernel, by decide +kernel⟩⟩,
   ⟨by decide +kernel, ⟨by decide +kernel, by decide +kernel, by decide +kernel⟩⟩,
   ⟨by decide +kernel, ⟨by decide +kernel, by decide +kernel, by decide +kernel⟩⟩,
   ⟨by decide +kernel, ⟨by decide +kernel, by decide +kernel, by decide +kernel⟩⟩,
   ⟨by decide +kernel, ⟨by decide +kernel, by decide +kernel, by decide +kernel⟩⟩,
   ⟨by decide +kernel, ⟨by decide +kernel, by decide +kernel, by decide +kernel⟩⟩,
   ⟨by decide +kernel, ⟨by decide +kernel, by decide +kernel, by decide +kernel⟩⟩,
   ⟨by decide +kernel, by decide +kernel, ⟨by decide +kernel, by decide +kernel, by decide +kernel⟩⟩,
   ⟨by decide +kernel, by decide +kernel, ⟨by decide +kernel, by decide +kernel, by decide +kernel⟩⟩,
   ⟨by decide +kernel, by decide +kernel, ⟨by decide +kernel, by decide +kernel, by decide +kernel⟩⟩⟩

theorem witness_UnitLocalWritesAreNotMirrored :
  (let src : Src := .partition; let v : Nat := 0x4443; let s : State := st [(R.startPhase, 8), (R.lcState, 4)] []; s.d.raised = [] ∧ Accepts src R.driftClear v s) ∧
  (let src : Src := .partition; let v : Nat := 1; let s : State := st [(R.startPhase, 8)] []; s.d.raised = [] ∧ Accepts src R.snapshotReq v s) ∧
  (let src : Src := .partition; let v : Nat := 1; let s : State := st [(R.startPhase, 8), (R.ledgerNewest, 5), (R.ledgerAck, 0)] []; s.d.raised = [] ∧ Accepts src R.ledgerAck v s) ∧
  (let src : Src := .partition; let v : Nat := 1; let s : State := st [(R.startPhase, 8)] []; s.d.raised = [] ∧ Accepts src R.ledgerRead v s) ∧
  (let src : Src := .partition; let s : State := st [(R.startPhase, 8)] []; s.d.raised = [] ∧ Accepts src R.resetReq 0x4150 s) ∧
  (let src : Src := .partition; let s : State := st [(R.startPhase, 8)] []; s.d.raised = [] ∧ Accepts src R.resetReq 0x4341 s) ∧
  (let src : Src := .partition; let s : State := st [(R.startPhase, 8)] []; s.d.raised = [] ∧ Accepts src R.resetReq 0x504F s) ∧
  (let src : Src := .partition; let s : State := st [(R.startPhase, 8)] []; s.d.raised = [] ∧ Accepts src R.alarmClear 1 s) ∧
  (let src : Src := .firmware; let v : Nat := 3; let s : State := st [(R.startPhase, 8)] []; s.d.raised = [] ∧ Accepts src R.lcTarget v s) ∧
  (let src : Src := .partition; let x : List Byte := List.replicate 48 5; let s : State := st [(R.startPhase, 8)] []; s.d.raised = [] ∧ x.length = (tyOf R.meas7Extend).bytes ∧ Accepts src R.meas7Extend (ofBytes (tyOf R.meas7Extend) x) s) ∧
  (let src : Src := .firmware; let x : List Byte := List.replicate 96 5; let s : State := st [(R.startPhase, 8)] []; s.d.raised = [] ∧ x.length = (tyOf R.lcToken).bytes ∧ Accepts src R.lcToken (ofBytes (tyOf R.lcToken) x) s) ∧
  (let src : Src := .partition; let s : State := st [(R.startPhase, 8)] []; s.d.raised = [] ∧ Accepts src R.swapReq 1 s ∧ s.role ≠ roleStandby) ∧
  (let src : Src := .partition; let s : State := st [(R.pairRole, roleStandby), (R.startPhase, 8)] []; s.d.raised = [] ∧ Accepts src R.swapReq 1 s ∧ s.role = roleStandby) :=
  ⟨⟨by decide +kernel, ⟨by decide +kernel, by decide +kernel, by decide +kernel⟩⟩,
   ⟨by decide +kernel, ⟨by decide +kernel, by decide +kernel, by decide +kernel⟩⟩,
   ⟨by decide +kernel, ⟨by decide +kernel, by decide +kernel, by decide +kernel⟩⟩,
   ⟨by decide +kernel, ⟨by decide +kernel, by decide +kernel, by decide +kernel⟩⟩,
   ⟨by decide +kernel, ⟨by decide +kernel, by decide +kernel, by decide +kernel⟩⟩,
   ⟨by decide +kernel, ⟨by decide +kernel, by decide +kernel, by decide +kernel⟩⟩,
   ⟨by decide +kernel, ⟨by decide +kernel, by decide +kernel, by decide +kernel⟩⟩,
   ⟨by decide +kernel, ⟨by decide +kernel, by decide +kernel, by decide +kernel⟩⟩,
   ⟨by decide +kernel, ⟨by decide +kernel, by decide +kernel, by decide +kernel⟩⟩,
   ⟨by decide +kernel, by decide +kernel, ⟨by decide +kernel, by decide +kernel, by decide +kernel⟩⟩,
   ⟨by decide +kernel, by decide +kernel, ⟨by decide +kernel, by decide +kernel, by decide +kernel⟩⟩,
   ⟨by decide +kernel, ⟨by decide +kernel, by decide +kernel, by decide +kernel⟩, by decide +kernel⟩,
   ⟨by decide +kernel, ⟨by decide +kernel, by decide +kernel, by decide +kernel⟩, by decide +kernel⟩⟩

theorem witness_RequestWritesTakeEffect :
  (let u : State := st [(R.pairRole, roleSuspect)] []; u.role = roleSuspect) ∧
  (let u : State := st [] []; u.role ≠ roleSuspect) := by decide +kernel

theorem witness_QueueWritesTakeEffect :
  (let q : Fin 64 := 1; let k := R.llMode 1; let u : State := st [] []; u.queues.length = 64 ∧ k ≠ R.qWritten q) := by decide +kernel

theorem witness_LotLimits :
  (let t : Inst := .can 0; let h : LotHdr := ⟨1, false, false, false, 7, 0x1000, 1, 0, 0⟩; let x := (⟨.can 0, 7, false, 0x1000, 1, [1,2,3], 3, 0, 1, 0, 0, .segment⟩ : Txn); let s : State := st [(R.startPhase, 8), ((R.islandState iNW), 2)] [(R.canLotPort, 1)] 0 (fun d => { d with txns := [x] }); s.carries t = true ∧ s.txn t h.tag = some x ∧ h.service = 1) ∧
  (let t : Inst := .can 0; let h : LotHdr := ⟨3, false, false, false, 7, 0x1000, 1, 0, 0⟩; let x := (⟨.can 0, 7, false, 0x1000, 1, [1,2,3], 3, 0, 1, 0, 0, .segment⟩ : Txn); let s : State := st [(R.startPhase, 8), ((R.islandState iNW), 2)] [(R.canLotPort, 1)] 0 (fun d => { d with txns := [x] }); s.carries t = true ∧ s.txn t h.tag = some x ∧ h.service = 3) ∧
  (let t : Inst := .can 0; let h : LotHdr := ⟨1, false, false, false, 7, 0x1000, 1, 0, 0⟩; let s : State := st [(R.startPhase, 8), ((R.islandState iNW), 2)] [(R.canLotPort, 1)] 0 (fun d => { d with txns := [(⟨.can 0, 1, false, 0x1000, 1, [1,2,3], 3, 0, 1, 0, 0, .segment⟩ : Txn), (⟨.can 0, 2, false, 0x1000, 1, [1,2,3], 3, 0, 1, 0, 0, .segment⟩ : Txn), (⟨.can 0, 3, false, 0x1000, 1, [1,2,3], 3, 0, 1, 0, 0, .segment⟩ : Txn), (⟨.can 0, 4, false, 0x1000, 1, [1,2,3], 3, 0, 1, 0, 0, .segment⟩ : Txn)] }); s.carries t = true ∧ s.txn t h.tag = none ∧ 4 ≤ (s.openOn t).length ∧ h.service = 1) ∧
  (let t : Inst := .can 0; let h : LotHdr := ⟨3, false, false, false, 7, 0x1000, 1, 0, 0⟩; let s : State := st [(R.startPhase, 8), ((R.islandState iNW), 2)] [(R.canLotPort, 1)] 0 (fun d => { d with txns := [(⟨.can 0, 1, false, 0x1000, 1, [1,2,3], 3, 0, 1, 0, 0, .segment⟩ : Txn), (⟨.can 0, 2, false, 0x1000, 1, [1,2,3], 3, 0, 1, 0, 0, .segment⟩ : Txn), (⟨.can 0, 3, false, 0x1000, 1, [1,2,3], 3, 0, 1, 0, 0, .segment⟩ : Txn), (⟨.can 0, 4, false, 0x1000, 1, [1,2,3], 3, 0, 1, 0, 0, .segment⟩ : Txn)] }); s.carries t = true ∧ s.txn t h.tag = none ∧ 4 ≤ (s.openOn t).length ∧ h.service = 3) ∧
  (let t : Inst := .can 0; let h : LotHdr := ⟨1, false, false, false, 7, 0x1000, 1, 0, 0⟩; let s : State := st [(R.startPhase, 8), ((R.islandState iNW), 2)] [(R.canLotPort, 1)] 0 (fun d => { d with txns := [(⟨.can 0, 1, false, 0x1000, 1, [1,2,3], 3, 0, 1, 0, 0, .segment⟩ : Txn)] }); s.carries t = true ∧ (s.openOn t).length ≤ 4 ∧ h.service = 1) ∧
  (let t : Inst := .can 0; let h : LotHdr := ⟨3, false, false, false, 7, 0x1000, 1, 0, 0⟩; let s : State := st [(R.startPhase, 8), ((R.islandState iNW), 2)] [(R.canLotPort, 1)] 0 (fun d => { d with txns := [(⟨.can 0, 1, false, 0x1000, 1, [1,2,3], 3, 0, 1, 0, 0, .segment⟩ : Txn)] }); s.carries t = true ∧ (s.openOn t).length ≤ 4 ∧ h.service = 3) := by decide +kernel

theorem witness_LotReads :
  (let t : Inst := .can 0; let h : LotHdr := ⟨1, false, false, false, 7, 0x1F00, 1, 0, 0⟩; let k := h.index * 256 + h.sub; let s : State := st [(R.startPhase, 8), ((R.islandState iNW), 2)] [(R.canLotPort, 1)]; let w := ((s.readRefusal k).getD (0,0,0)); s.carries t = true ∧ h.service = 1 ∧ s.txn t h.tag = none ∧ (s.openOn t).length < 4 ∧ h.index < 0x5000 ∧ s.readRefusal k = some w) ∧
  (let t : Inst := .can 0; let h : LotHdr := ⟨1, false, false, false, 7, 0x2020, 1, 0, 0⟩; let k := h.index * 256 + h.sub; let s : State := st [(R.startPhase, 8), ((R.islandState iNW), 2)] [(R.canLotPort, 1)]; let value := (s.readBytes k h.shadow false).1; s.carries t = true ∧ h.service = 1 ∧ s.txn t h.tag = none ∧ (s.openOn t).length < 4 ∧ h.index < 0x5000 ∧ s.readRefusal k = none ∧ value.length ≤ lotCap t) ∧
  (let t : Inst := .can 0; let h : LotHdr := ⟨1, false, false, false, 7, (R.importPub / 256), (R.importPub % 256), 0, 0⟩; let k := h.index * 256 + h.sub; let s : State := st [(R.startPhase, 8), ((R.islandState iNW), 2)] [(R.canLotPort, 1)]; let value := (s.readBytes k h.shadow false).1; s.carries t = true ∧ h.service = 1 ∧ s.txn t h.tag = none ∧ (s.openOn t).length < 4 ∧ h.index < 0x5000 ∧ s.readRefusal k = none ∧ lotCap t < value.length) ∧
  (let t : Inst := .can 0; let h : LotHdr := ⟨6, false, false, false, 7, 0x1000, 1, 0, 0⟩; let s : State := st [(R.startPhase, 8), ((R.islandState iNW), 2)] [(R.canLotPort, 1)]; s.carries t = true ∧ h.service = 6 ∧ s.txn t h.tag = none) ∧
  (let t : Inst := .can 0; let h : LotHdr := ⟨6, false, false, false, 7, 0x1000, 1, 3, 0⟩; let x := (⟨.can 0, 7, false, 0x1000, 1, [1,2,3], 3, 0, 1, 0, 0, .segment⟩ : Txn); let s : State := st [(R.startPhase, 8), ((R.islandState iNW), 2)] [(R.canLotPort, 1)] 0 (fun d => { d with txns := [x] }); s.carries t = true ∧ h.service = 6 ∧ s.txn t h.tag = some x ∧ (x.isWrite = true ∨ x.wait ≠ .segment ∨ h.seg ≠ x.seg)) ∧
  (let t : Inst := .can 0; let h : LotHdr := ⟨6, false, false, false, 7, 0x1000, 1, 1, 0⟩; let x := (⟨.can 0, 7, false, 0x1000, 1, [1,2,3], 3, 0, 1, 0, 0, .segment⟩ : Txn); let part := (x.data.drop x.done).take (lotCap t); let s : State := st [(R.startPhase, 8), ((R.islandState iNW), 2)] [(R.canLotPort, 1)] 0 (fun d => { d with txns := [x] }); s.carries t = true ∧ h.service = 6 ∧ s.txn t h.tag = some x ∧ x.isWrite = false ∧ x.wait = .segment ∧ h.seg = x.seg ∧ x.data.length ≤ x.done + part.length) ∧
  (let t : Inst := .can 0; let h : LotHdr := ⟨6, false, false, false, 7, 0x1000, 1, 1, 0⟩; let x := (⟨.can 0, 7, false, 0x1000, 1, List.replicate 200 5, 200, 56, 1, 0, 0, .segment⟩ : Txn); let part := (x.data.drop x.done).take (lotCap t); let s : State := st [(R.startPhase, 8), ((R.islandState iNW), 2)] [(R.canLotPort, 1)] 0 (fun d => { d with txns := [x] }); s.carries t = true ∧ h.service = 6 ∧ s.txn t h.tag = some x ∧ x.isWrite = false ∧ x.wait = .segment ∧ h.seg = x.seg ∧ x.done + part.length < x.data.length) ∧
  (let t : Inst := .can 0; let h : LotHdr := ⟨9, false, false, false, 7, 0x1000, 1, 0, 0⟩; let s : State := st [(R.startPhase, 8), ((R.islandState iNW), 2)] [(R.canLotPort, 1)]; s.carries t = true ∧ [1, 3, 5, 6, 7].contains h.service = false) := by decide +kernel

theorem witness_LotWrites :
  (let t : Inst := .can 0; let h : LotHdr := ⟨3, false, false, false, 7, 0x1020, 2, 0, 1⟩; let data : List Byte := [1]; let k := h.index * 256 + h.sub; let src := srcOfInst t; let n := (tyOf k).bytes; let s : State := st [(R.startPhase, 8), ((R.islandState iNW), 2)] [(R.canLotPort, 1)]; s.carries t = true ∧ s.d.raised = [] ∧ h.index < 0x5000 ∧ s.keyRefusal src k = none ∧ k ≠ R.swapReq ∧ h.length = n ∧ h.service = 3 ∧ s.txn t h.tag = none ∧ (s.openOn t).length < 4 ∧ n ≤ lotCap t ∧ n ≤ data.length ∧ s.valueRefusal k (ofBytes (tyOf k) (data.take n)) = none) ∧
  (let t : Inst := .udp 0; let h : LotHdr := ⟨3, false, true, false, 7, (R.updData / 256), (R.updData % 256), 0, 4096⟩; let data : List Byte := List.replicate 1024 5; let k := h.index * 256 + h.sub; let src := srcOfInst t; let n := (tyOf k).bytes; let s : State := st [(R.startPhase, 8), ((R.islandState iNW), 2), (R.updState, 1), (R.lcState, 1)] [(R.canLotPort, 1)] 0 (fun d => { d with assocs := [⟨0, true⟩] }); s.carries t = true ∧ s.d.raised = [] ∧ h.index < 0x5000 ∧ s.keyRefusal src k = none ∧ k ≠ R.swapReq ∧ h.length = n ∧ h.service = 3 ∧ s.txn t h.tag = none ∧ (s.openOn t).length < 4 ∧ lotCap t < n ∧ lotCap t ≤ data.length ∧ h.segmented = true) := by decide +kernel

theorem witness_LotSegments :
  (let t : Inst := .can 0; let h : LotHdr := ⟨5, false, false, false, 7, 0x1000, 1, 1, 1⟩; let s : State := st [(R.startPhase, 8), ((R.islandState iNW), 2)] [(R.canLotPort, 1)] 0 (fun d => { d with txns := [] }); s.carries t = true ∧ s.d.raised = [] ∧ h.service = 5 ∧ s.txn t h.tag = none) ∧
  (let t : Inst := .can 0; let h : LotHdr := ⟨5, false, false, false, 7, 0x1000, 1, 4, 0⟩; let x := (⟨.can 0, 7, true, 0x1000, 1, [1,2,3], 4, 0, 1, 0, 0, .segment⟩ : Txn); let s : State := st [(R.startPhase, 8), ((R.islandState iNW), 2)] [(R.canLotPort, 1)] 0 (fun d => { d with txns := [x] }); s.carries t = true ∧ s.d.raised = [] ∧ h.service = 5 ∧ s.txn t h.tag = some x ∧ (x.isWrite = false ∨ x.wait ≠ .segment ∨ h.seg ≠ x.seg)) ∧
  (let t : Inst := .can 0; let h : LotHdr := ⟨5, false, false, false, 7, 0x1000, 1, 1, 1⟩; let data : List Byte := []; let x := (⟨.can 0, 7, true, 0x1000, 1, [1,2,3], 4, 0, 1, 0, 0, .segment⟩ : Txn); let n := min (lotCap t) (x.want - x.data.length); let s : State := st [(R.startPhase, 8), ((R.islandState iNW), 2)] [(R.canLotPort, 1)] 0 (fun d => { d with txns := [x] }); s.carries t = true ∧ s.d.raised = [] ∧ h.service = 5 ∧ s.txn t h.tag = some x ∧ x.isWrite = true ∧ x.wait = .segment ∧ h.seg = x.seg ∧ (h.length ≠ n ∨ data.length < n)) ∧
  (let t : Inst := .can 0; let h : LotHdr := ⟨5, false, false, false, 7, 0x1000, 1, 1, 56⟩; let data : List Byte := List.replicate 56 7; let x := (⟨.can 0, 7, true, 0x1000, 1, [1,2,3], 400, 0, 1, 0, 0, .segment⟩ : Txn); let n := min (lotCap t) (x.want - x.data.length); let s : State := st [(R.startPhase, 8), ((R.islandState iNW), 2)] [(R.canLotPort, 1)] 0 (fun d => { d with txns := [x] }); let y := { x with data := x.data ++ data.take n, seg := (x.seg + 1) % 256, touched := s.o R.now }; s.carries t = true ∧ s.d.raised = [] ∧ h.service = 5 ∧ s.txn t h.tag = some x ∧ x.isWrite = true ∧ x.wait = .segment ∧ h.seg = x.seg ∧ h.length = n ∧ n ≤ data.length ∧ y.data.length < y.want) ∧
  (let t : Inst := .can 0; let h : LotHdr := ⟨5, false, false, false, 7, 0x1000, 1, 1, 1⟩; let data : List Byte := [1]; let x := (⟨.can 0, 7, true, 0x1020, 2, [], 1, 0, 1, 0, 0, .segment⟩ : Txn); let n := min (lotCap t) (x.want - x.data.length); let k := x.index * 256 + x.sub; let s : State := st [(R.startPhase, 8), ((R.islandState iNW), 2)] [(R.canLotPort, 1)] 0 (fun d => { d with txns := [x] }); let y := { x with data := x.data ++ data.take n, seg := (x.seg + 1) % 256, touched := s.o R.now }; s.carries t = true ∧ s.d.raised = [] ∧ h.service = 5 ∧ s.txn t h.tag = some x ∧ x.isWrite = true ∧ x.wait = .segment ∧ h.seg = x.seg ∧ h.length = n ∧ n ≤ data.length ∧ y.want ≤ y.data.length ∧ x.index < 0x5000 ∧ s.keyRefusal (srcOfInst t) k = none ∧ s.valueRefusal k (ofBytes (tyOf k) y.data) = none ∧ k ≠ R.swapReq) := by decide +kernel

theorem witness_LotEnds :
  (let t : Inst := .can 0; let tag : Nat := 7; let x : Txn := (⟨.can 0, 7, false, 0x1000, 1, [1,2,3], 3, 0, 1, 0, 0, .segment⟩ : Txn); let s : State := st [(R.startPhase, 8), ((R.islandState iNW), 2), (R.now, 10000000000000)] [(R.canLotPort, 1)] 0 (fun d => { d with txns := [x] }); s.serves = true ∧ s.txn t tag = some x ∧ x.wait = .segment ∧ 100000 ≤ s.usSince x.touched) ∧
  (let t : Inst := .can 0; let tag : Nat := 7; let x : Txn := (⟨.can 0, 7, false, 0x1000, 1, [1,2,3], 3, 0, 1, 0, 0, .segment⟩ : Txn); let s : State := st [(R.startPhase, 8), ((R.islandState iNW), 2), (R.now, 10000000000000)] [(R.canLotPort, 1)] 0 (fun d => { d with txns := [x] }); s.serves = true ∧ s.txn t tag = some x ∧ 5000000 ≤ s.usSince x.opened) ∧
  (let t : Inst := .can 0; let tag : Nat := 7; let x : Txn := (⟨.can 0, 7, false, 0x1000, 1, [1,2,3], 3, 0, 1, 0, 0, .verdict⟩ : Txn); let s : State := st [(R.startPhase, 8), ((R.islandState iNW), 2), (R.now, 10000000000000)] [(R.canLotPort, 1)] 0 (fun d => { d with txns := [x] }); s.serves = true ∧ s.txn t tag = some x ∧ x.wait = .verdict ∧ 100000 ≤ s.usSince x.touched) ∧
  (let t : Inst := .can 0; let tag : Nat := 7; let x : Txn := (⟨.can 0, 7, true, 0x1000, 1, [1,2,3], 3, 0, 1, 0, 0, .verdict⟩ : Txn); let s : State := st [(R.startPhase, 8), ((R.islandState iNW), 2), (R.now, 10000000000000)] [(R.canLotPort, 1)] 0 (fun d => { d with txns := [x] }); s.serves = true ∧ s.txn t tag = some x ∧ x.wait = .verdict ∧ x.isWrite = true) ∧
  (let t : Inst := .can 0; let tag : Nat := 7; let x : Txn := (⟨.can 0, 7, false, 0x1000, 1, [1,2,3], 3, 0, 1, 0, 0, .verdict⟩ : Txn); let value := ([1,2] : List Byte); let s : State := st [(R.startPhase, 8), ((R.islandState iNW), 2), (R.now, 10000000000000)] [(R.canLotPort, 1)] 0 (fun d => { d with txns := [x] }); s.serves = true ∧ s.txn t tag = some x ∧ x.wait = .verdict ∧ x.isWrite = false ∧ value.length ≤ lotCap t) ∧
  (let t : Inst := .can 0; let tag : Nat := 7; let x : Txn := (⟨.can 0, 7, false, 0x1000, 1, [1,2,3], 3, 0, 1, 0, 0, .segment⟩ : Txn); let h : LotHdr := ⟨7, false, false, false, 7, 0x1000, 1, 0, 0⟩; let s : State := st [(R.startPhase, 8), ((R.islandState iNW), 2), (R.now, 10000000000000)] [(R.canLotPort, 1)] 0 (fun d => { d with txns := [x] }); s.serves = true ∧ s.txn t tag = some x ∧ s.carries t = true ∧ h.service = 7 ∧ h.tag = tag ∧ (x.isWrite = false ∨ x.wait ≠ .stamp)) ∧
  (let t : Inst := .can 0; let tag : Nat := 7; let x : Txn := (⟨.can 0, 7, true, 0x1000, 1, [1,2,3], 3, 0, 1, 0, 0, .stamp⟩ : Txn); let h : LotHdr := ⟨7, false, false, false, 7, 0x1000, 1, 0, 0⟩; let s : State := st [(R.startPhase, 8), ((R.islandState iNW), 2), (R.now, 10000000000000)] [(R.canLotPort, 1)] 0 (fun d => { d with txns := [x] }); s.serves = true ∧ s.txn t tag = some x ∧ s.carries t = true ∧ h.service = 7 ∧ h.tag = tag ∧ x.isWrite = true ∧ x.wait = .stamp) := by decide +kernel

theorem witness_AssociationsOpen :
  (let s : State := st [((R.islandState iNW), 2), (R.startPhase, 8)] [(R.udpEthMask, 1), (R.readAnchorSlot, 5)] 0 (fun d => { d with assocs := [⟨0, true⟩, ⟨1, false⟩, ⟨2, true⟩, ⟨3, true⟩] }); s.serves = true ∧ (s.island iNW = 2 ∨ s.island iNW = 3) ∧ s.a R.udpEthMask ≠ 0 ∧ (∀ n : Fin 4, ∃ x ∈ s.d.assocs, x.num = n)) ∧
  (let o : DtlsOffer := ⟨true, true, true, false, true, true⟩; let good := o.dtls13 && o.suiteOk && o.groupOk && o.certEcdsa; let n : Fin 4 := 1; let s : State := st [((R.islandState iNW), 2), (R.startPhase, 8)] [(R.udpEthMask, 1), (R.readAnchorSlot, 5)] 0 (fun d => { d with assocs := [⟨0, true⟩] }); s.serves = true ∧ (s.island iNW = 2 ∨ s.island iNW = 3) ∧ s.a R.udpEthMask ≠ 0 ∧ (∀ x ∈ s.d.assocs, x.num ≠ n) ∧ (∀ m, m < n → ∃ x ∈ s.d.assocs, x.num = m) ∧ good = false) ∧
  (let o : DtlsOffer := ⟨true, true, true, true, true, true⟩; let good := o.dtls13 && o.suiteOk && o.groupOk && o.certEcdsa; let n : Fin 4 := 1; let s : State := st [((R.islandState iNW), 2), (R.startPhase, 8), ((R.slotState 5), 1), ((R.slotAttr 5), 0x80002)] [(R.udpEthMask, 1), (R.readAnchorSlot, 5)] 0 (fun d => { d with assocs := [⟨0, true⟩] }); let reads := o.chainsRead && s.anchorIn (s.a R.readAnchorSlot); let writes := o.chainsWrite && s.anchorIn (s.a R.writeAnchorSlot); s.serves = true ∧ (s.island iNW = 2 ∨ s.island iNW = 3) ∧ s.a R.udpEthMask ≠ 0 ∧ (∀ x ∈ s.d.assocs, x.num ≠ n) ∧ (∀ m, m < n → ∃ x ∈ s.d.assocs, x.num = m) ∧ good = true ∧ (reads || writes) = true) ∧
  (let o : DtlsOffer := ⟨true, true, true, true, false, false⟩; let good := o.dtls13 && o.suiteOk && o.groupOk && o.certEcdsa; let n : Fin 4 := 1; let s : State := st [((R.islandState iNW), 2), (R.startPhase, 8)] [(R.udpEthMask, 1), (R.readAnchorSlot, 5)] 0 (fun d => { d with assocs := [⟨0, true⟩] }); let reads := o.chainsRead && s.anchorIn (s.a R.readAnchorSlot); let writes := o.chainsWrite && s.anchorIn (s.a R.writeAnchorSlot); s.serves = true ∧ (s.island iNW = 2 ∨ s.island iNW = 3) ∧ s.a R.udpEthMask ≠ 0 ∧ (∀ x ∈ s.d.assocs, x.num ≠ n) ∧ (∀ m, m < n → ∃ x ∈ s.d.assocs, x.num = m) ∧ good = true ∧ (reads || writes) = false) := by decide +kernel

theorem witness_ObjectWriteReachesItsObject :
  (let src : Src := .partition; let index : Nat := (R.nodeId / 256); let sub : Nat := (R.nodeId % 256); let data : List Byte := [1]; let k := index * 256 + sub; let s : State := st [(R.startPhase, 8)] []; s.d.raised = [] ∧ index < 0x5000 ∧ data.length = (tyOf k).bytes ∧ Accepts src k (ofBytes (tyOf k) data) s ∧ k ≠ R.swapReq ∧ unitLocal k = false) ∧
  (let src : Src := .partition; let index : Nat := (R.alarmClear / 256); let sub : Nat := (R.alarmClear % 256); let data : List Byte := [1]; let k := index * 256 + sub; let s : State := st [(R.startPhase, 8)] []; s.d.raised = [] ∧ index < 0x5000 ∧ data.length = (tyOf k).bytes ∧ Accepts src k (ofBytes (tyOf k) data) s ∧ k ≠ R.swapReq ∧ unitLocal k = true) ∧
  (let src : Src := .partition; let index : Nat := (R.nodeId / 256); let sub : Nat := (R.nodeId % 256); let data : List Byte := [1,2,3]; let k := index * 256 + sub; let s : State := st [(R.startPhase, 8)] []; s.d.raised = [] ∧ index < 0x5000 ∧ s.serves = true ∧ s.keyRefusal src k = none ∧ data.length ≠ (tyOf k).bytes) :=
  ⟨⟨by decide +kernel, by decide +kernel, by decide +kernel, ⟨by decide +kernel, by decide +kernel, by decide +kernel⟩, by decide +kernel, by decide +kernel⟩,
   ⟨by decide +kernel, by decide +kernel, by decide +kernel, ⟨by decide +kernel, by decide +kernel, by decide +kernel⟩, by decide +kernel, by decide +kernel⟩,
   by decide +kernel⟩

theorem witness_SessionTimeouts :
  (let k : Out := 1; let s : State := st [((R.outState k), osIso), (R.now, 2000000000000)] []; s.os k = osIso ∧ s.mainsClosed k = false ∧ 30000 ≤ s.usSince (s.o (R.outCmdNs k))) ∧
  (let k : Out := 1; let s : State := st [((R.outState k), osRamp), ((R.outZeroNs k), 0), ((R.outLowNs k), -1), (R.now, 2000000000000), ((R.outEndCause k), 8)] []; s.os k = osRamp ∧ 0 ≤ s.o (R.outZeroNs k) ∧ s.o (R.outLowNs k) < 0 ∧ 1000000 ≤ s.usSince (s.o (R.outZeroNs k)) ∧ 6 < s.o (R.outEndCause k)) ∧
  (let k : Out := 1; let s : State := st [((R.outState k), osWeld), (R.now, 2000000000000)] []; s.os k = osWeld ∧ s.o (R.outPhaseDone k) ≠ 1 ∧ 500000 ≤ s.usSince (s.o (R.outPhaseNs k))) ∧
  (let k : Out := 1; let s : State := st [((R.outPend k), 0), ((R.outState k), osIso), (R.now, 2000000000000)] []; s.o (R.outPend k) = 0 ∧ s.os k = osIso ∧ 40000000 ≤ s.usSince (s.o (R.outNs k))) ∧
  (let k : Out := 1; let s : State := st [((R.outPend k), 0), ((R.outState k), osPre), (R.now, 2000000000000)] []; s.o (R.outPend k) = 0 ∧ s.os k = osPre ∧ 7000000 ≤ s.usSince (s.o (R.outNs k))) ∧
  (let k : Out := 1; let s : State := st [((R.outPend k), 0), ((R.outState k), osEnergy), ((R.outPauseNs k), 0), (R.now, 2000000000000)] [((R.pauseLimitUs k), 1000)]; s.o (R.outPend k) = 0 ∧ s.os k = osEnergy ∧ s.a (R.pauseLimitUs k) ≠ 0 ∧ 0 ≤ s.o (R.outPauseNs k) ∧ s.a (R.pauseLimitUs k) ≤ s.usSince (s.o (R.outPauseNs k))) := by decide +kernel

theorem witness_SessionSteps :
  (let k : Out := 1; let s : State := st [((R.outState k), osIso), ((R.outHoldNs k), 0), (R.now, 2000000000000), ((R.outLowNs k), 0)] []; s.os k = osIso ∧ 0 ≤ s.o (R.outHoldNs k) ∧ s.a (R.isoDwellUs k) ≤ s.usSince (s.o (R.outHoldNs k))) ∧
  (let k : Out := 1; let s : State := st [((R.outState k), osPre), ((R.outHoldNs k), 0), (R.now, 2000000000000), ((R.outLowNs k), 0)] []; s.os k = osPre ∧ 0 ≤ s.o (R.outHoldNs k) ∧ 100000 ≤ s.usSince (s.o (R.outHoldNs k))) ∧
  (let k : Out := 1; let s : State := st [((R.outState k), osRamp), ((R.outEndCause k), 7), (R.now, 2000000000000), ((R.outLowNs k), 0), ((R.outVehOpen k), 1)] []; s.os k = osRamp ∧ s.quiet10 k = true ∧ (s.o (R.outVehOpen k) = 1 ∨ s.o (R.outLinkLost k) = 1 ∨ 2000000 ≤ s.usSince (s.o (R.outLowNs k))) ∧ s.o (R.outEndCause k) = 7) ∧
  (let k : Out := 1; let s : State := st [((R.outState k), osRamp), ((R.outPend k), 0), (R.now, 2000000000000), ((R.outLowNs k), 0), ((R.outVehOpen k), 1), ((R.outEndCause k), 8)] []; s.os k = osRamp ∧ s.quiet10 k = true ∧ (s.o (R.outVehOpen k) = 1 ∨ s.o (R.outLinkLost k) = 1 ∨ 2000000 ≤ s.usSince (s.o (R.outLowNs k))) ∧ s.o (R.outEndCause k) ≠ 7 ∧ s.o (R.outEndCause k) ≠ 9 ∧ s.o (R.outPend k) = 0) ∧
  (let k : Out := 1; let s : State := st [((R.outState k), osWeld), (R.now, 2000000000000), ((R.outLowNs k), 0), ((R.outPhase k), 2), ((R.expRead (outExp k)), 2), ((R.expAux (outExp k)), 65535), ((R.expPrev (outExp k)), 65535)] []; s.os k = osWeld ∧ s.o (R.outPhaseDone k) ≠ 1 ∧ s.weldOk k = true) := by decide +kernel

theorem witness_FaultOpensContactors :
  (let k : Out := 1; let s : State := st [((R.outState k), osFault), ((R.expCmd (outExp k)), 65535), (R.now, 2000000000000), ((R.outLowNs k), 0)] []; s.os k = osFault ∧ 0 ≤ s.o (R.expCmd (outExp k)) ∧ s.o (R.expCmd (outExp k)) ≤ 65535 ∧ s.quiet10 k = true) ∧
  (let k : Out := 1; let s : State := st [((R.outState k), osFault), ((R.expCmd (outExp k)), 65535), (R.now, 2000000000000), ((R.outLowNs k), 0)] []; s.os k = osFault ∧ 0 ≤ s.o (R.expCmd (outExp k)) ∧ s.o (R.expCmd (outExp k)) ≤ 65535 ∧ (s.coilOn (outExp k) (outCoil k 0) = true ∨ s.coilOn (outExp k) (outCoil k 1) = true) ∧ (s.quiet10 k = true ∨ s.a R.contactForceUs ≤ s.usSince (s.o (R.outNs k)))) := by decide +kernel

theorem witness_VehicleRequests :
  (let k : Out := 1; let s : State := st [((R.tcpOpen k), 1), ((R.tlsUp k), 1), ((R.islandState iVL), 2), (R.startPhase, 8)] [((R.outletType k), 1)]; s.talks k = true ∧ s.drives = true ∧ s.d.raised = []) := by decide +kernel

theorem witness_VehicleLink :
  (let k : Out := 1; let high := (9000:Int); let low := (0:Int); let s : State := st [((R.tcpOpen k), 1), ((R.tlsUp k), 1), ((R.islandState iVL), 2), (R.startPhase, 8)] [((R.outletType k), 1), ((R.thAb k), 10500), ((R.thBc k), 7500)]; s.linked k = true ∧ s.d.raised = [] ∧ isPresent (s.pilotOf k high low) = true) ∧
  (let k : Out := 1; let high := 12000; let low := (0:Int); let s : State := st [((R.tcpOpen k), 1), ((R.tlsUp k), 1), ((R.islandState iVL), 2), (R.startPhase, 8)] [((R.outletType k), 1)]; s.linked k = true ∧ s.d.raised = [] ∧ isPresent (s.pilotOf k high low) = false) ∧
  (let k : Out := 1; let s : State := st [((R.tcpOpen k), 0), ((R.tlsUp k), 1), ((R.islandState iVL), 2), (R.startPhase, 8)] [((R.outletType k), 1)]; s.linked k = true ∧ s.d.raised = [] ∧ s.o (R.tcpOpen k) ≠ 1) ∧
  (let k : Out := 1; let o : TlsOffer := ⟨true, true, true⟩; let s : State := st [((R.tcpOpen k), 1), ((R.tlsUp k), 0), ((R.islandState iVL), 2), (R.startPhase, 8), ((R.slotState 5), 1), ((R.slotAttr 5), 0x80001), ((R.slotType 5), 3)] [((R.outletType k), 1), ((R.tlsSlot k), 5)]; s.linked k = true ∧ s.d.raised = [] ∧ s.o (R.tcpOpen k) = 1 ∧ s.o (R.tlsUp k) ≠ 1 ∧ (s.outlet k = 1 ∨ s.outlet k = 3) ∧ (o.tls13 && o.aes256gcm && o.secp521r1 && s.tlsKey (s.a (R.tlsSlot k))) = true) ∧
  (let k : Out := 1; let o : TlsOffer := ⟨false, true, true⟩; let s : State := st [((R.tcpOpen k), 1), ((R.tlsUp k), 0), ((R.islandState iVL), 2), (R.startPhase, 8)] [((R.outletType k), 1)]; s.linked k = true ∧ s.d.raised = [] ∧ s.o (R.tcpOpen k) = 1 ∧ s.o (R.tlsUp k) ≠ 1 ∧ (s.outlet k = 1 ∨ s.outlet k = 3) ∧ (o.tls13 && o.aes256gcm && o.secp521r1 && s.tlsKey (s.a (R.tlsSlot k))) = false) := by decide +kernel

theorem witness_VehicleTimes :
  (let k : Out := 1; let s : State := st [((R.vlMsgNs k), 0), ((R.tcpOpen k), 1), ((R.tlsUp k), 1), ((R.islandState iVL), 2), (R.startPhase, 8), (R.now, 2000000000000)] [((R.outletType k), 1)]; s.linked k = true ∧ s.d.raised = [] ∧ 0 ≤ s.o (R.vlMsgNs k) ∧ ((if s.os k = osEnergy then s.a (R.msgTimeoutLoopUs k) else s.a (R.msgTimeoutOtherUs k)) ≤ s.usSince (s.o (R.vlMsgNs k)))) ∧
  (let k : Out := 1; let s : State := st [((R.vlSeqNs k), 0), ((R.tcpOpen k), 1), ((R.tlsUp k), 1), ((R.islandState iVL), 2), (R.startPhase, 8), (R.now, 2000000000000)] [((R.outletType k), 1)]; s.linked k = true ∧ s.d.raised = [] ∧ 0 ≤ s.o (R.vlSeqNs k) ∧ s.a (R.seqTimeoutUs k) ≤ s.usSince (s.o (R.vlSeqNs k))) ∧
  (let k : Out := 1; let s : State := st [((R.tcpOpen k), 1), ((R.tlsUp k), 1), ((R.islandState iVL), 2), (R.startPhase, 8), (R.now, 2000000000000)] [((R.outletType k), 1)]; s.linked k = true ∧ s.d.raised = [] ∧ s.o (R.tcpOpen k) = 1) ∧
  (let k : Out := 1; let s : State := st [((R.renegNs k), 0), ((R.tcpOpen k), 1), ((R.tlsUp k), 1), ((R.islandState iVL), 2), (R.startPhase, 8), (R.now, 2000000000000)] [((R.outletType k), 1)]; s.linked k = true ∧ s.d.raised = [] ∧ 0 ≤ s.o (R.renegNs k) ∧ s.o (R.vlRenegSent k) ≠ 1 ∧ s.a (R.renegDelayUs k) ≤ s.usSince (s.o (R.renegNs k))) ∧
  (let k : Out := 1; let atten : Nat := 1; let s : State := st [((R.tcpOpen k), 1), ((R.tlsUp k), 1), ((R.islandState iVL), 2), (R.startPhase, 8), (R.now, 2000000000000), ((R.outState k), 1)] [((R.outletType k), 2)]; s.linked k = true ∧ s.d.raised = [] ∧ s.outlet k = 2 ∧ s.os k ≠ osIdle ∧ (atten : Int) ≤ s.a (R.slacAttenMax k)) ∧
  (let k : Out := 1; let s : State := st [((R.outState k), 1), ((R.tcpOpen k), 1), ((R.tlsUp k), 1), ((R.islandState iVL), 2), (R.startPhase, 8), (R.now, 2000000000000)] [((R.outletType k), 2)]; s.linked k = true ∧ s.d.raised = [] ∧ s.outlet k = 2 ∧ s.os k = osConnected ∧ s.o (R.slacDone k) ≠ 1 ∧ s.o (R.linkFault k) ≠ 5 ∧ 20000000 ≤ s.usSince (s.o (R.outNs k))) := by decide +kernel

theorem witness_ModemTransfers :
  (let p : Fe := 1; let sel : Fin 2 := 1; let resp : List Byte := [0x5A, 2, 0, 2, 7, 8, 1, 1]; let k : Nat := 1; let r := resp.map (·.toNat); let s : State := st [((R.islandState iVL), 2)] [((R.outletType 1), 2), ((R.modemSel 1), 17)]; s.modemOut p sel = some k ∧ s.onBus = true ∧ s.island iVL ≠ 0 ∧ r.getD 0 0 = 0x5A) ∧
  (let p : Fe := 1; let sel : Fin 2 := 1; let resp : List Byte := [0]; let k : Nat := 1; let r := resp.map (·.toNat); let s : State := st [((R.islandState iVL), 2)] [((R.outletType 1), 2), ((R.modemSel 1), 17)]; s.modemOut p sel = some k ∧ s.onBus = true ∧ s.island iVL ≠ 0 ∧ r.getD 0 0 ≠ 0x5A ∧ (s.o (R.mdmFail p sel) + 1 < 10 ∨ s.o (mdmState p sel) = 3)) ∧
  (let p : Fe := 1; let sel : Fin 2 := 1; let resp : List Byte := [0]; let k : Nat := 1; let r := resp.map (·.toNat); let s : State := st [((R.outState k), osIdle), ((R.islandState iVL), 2), ((R.mdmFail p sel), 9)] [((R.outletType 1), 2), ((R.modemSel 1), 17)]; s.modemOut p sel = some k ∧ s.onBus = true ∧ s.island iVL ≠ 0 ∧ r.getD 0 0 ≠ 0x5A ∧ 10 ≤ s.o (R.mdmFail p sel) + 1 ∧ s.o (mdmState p sel) ≠ 3 ∧ s.d.raised = [] ∧ k < 24 ∧ s.os k = osIdle) ∧
  (let p : Fe := 1; let sel : Fin 2 := 1; let resp : List Byte := [0]; let k : Nat := 1; let r := resp.map (·.toNat); let s : State := st [((R.islandState iVL), 2), ((R.mdmFail p sel), 9), ((R.outState 1), 3)] [((R.outletType 1), 2), ((R.modemSel 1), 17)]; s.modemOut p sel = some k ∧ s.onBus = true ∧ s.island iVL ≠ 0 ∧ r.getD 0 0 ≠ 0x5A ∧ 10 ≤ s.o (R.mdmFail p sel) + 1 ∧ s.o (mdmState p sel) ≠ 3 ∧ s.d.raised = [] ∧ k < 24 ∧ s.os k ≠ osIdle) := by decide +kernel

theorem witness_VehicleInputsLand :
  (let k : Out := 1; let u : State := st [((R.outState k), osConnected), ((R.tcpOpen k), 1), ((R.tlsUp k), 1), ((R.islandState iVL), 2), (R.startPhase, 8)] [((R.outletType k), 1)]; u.os k = osConnected) ∧
  (let k : Out := 1; let u : State := st [((R.outState k), osIdle), ((R.outPend k), 0), ((R.vehHere k), 1), ((R.tcpOpen k), 1), ((R.tlsUp k), 1), ((R.islandState iVL), 2), (R.startPhase, 9), (R.sfState, 1), ((R.gResult 241), 4611686018427387904), ((R.gResult 264), 4611686018427387904), ((R.gResult 266), 4611686018427387904), ((R.vcoefStatus 1), 1), ((R.islandState iCA), 2), (R.lcState, 2), ((R.vehHere 1), 1), (R.injMask, 0), ((R.outLock 1), 0), ((R.expFlags (outExp 1)), 0), (R.pairOn, 0)] [((R.outletType k), 1), ((R.sglEnable 0), 1), ((R.expEnable 0), 0xFFFFFFFF)]; u.os k = osIdle ∧ u.o (R.outPend k) = 0 ∧ u.lc ≠ 0 ∧ u.lc ≠ 5 ∧ u.mayLeaveIdle k = true ∧ u.o (R.vehHere k) = 1) ∧
  (let k : Out := 1; let u : State := st [((R.outState k), 2), ((R.outPend k), 0), ((R.tcpOpen k), 1), ((R.tlsUp k), 1), ((R.islandState iVL), 2), (R.startPhase, 8), ((R.isoResult k), 1)] [((R.outletType k), 1)]; u.os k = osIso ∧ (u.o (R.isoResult k) = 1 ∨ u.o (R.isoResult k) = 2) ∧ u.o (R.outPend k) = 0) := by decide +kernel

theorem witness_SwitchgearCycle :
  (let s : State := st [] [((R.sglEnable 0), 1), ((R.expEnable 0), 3)] 126; s.sample % 125 = 0 ∧ s.o (R.sglDone 0) ≠ (s.gcount : Int) ∧ s.d.raised = []) := by decide +kernel

theorem witness_SwitchgearResponses :
  (let l : Lnk := 1; let e : Exp := 1; let r := (⟨2, 5, 3, 1⟩ : SglResp); let s : State := st [] [((R.sglEnable 1), 1), ((R.expEnable 1), 2)]; s.expEnabled (expNo l e) = true ∧ s.sglInjected l e = none ∧ respValid e r = false) ∧
  (let l : Lnk := 1; let e : Exp := 1; let s : State := st [(R.injRunning, 137), ((R.injState 137), 1), ((R.injArg 137), 1)] [((R.sglEnable 1), 1), ((R.expEnable 1), 2)]; s.expEnabled (expNo l e) = true ∧ s.sglInjected l e = some 0) ∧
  (let l : Lnk := 1; let e : Exp := 1; let r := (⟨1, 5, 3, crc16 [1, 0, 5, 3]⟩ : SglResp); let s : State := st [] [((R.sglEnable 1), 1), ((R.expEnable 1), 2)]; s.expEnabled (expNo l e) = true ∧ s.sglInjected l e = none ∧ respValid e r = true ∧ s.d.raised = [] ∧ s.drives = true) ∧
  (let l : Lnk := 1; let e : Exp := 1; let r := (⟨1, 5, 3, crc16 [1, 0, 5, 3]⟩ : SglResp); let s : State := st [(R.pairRole, 2)] [((R.sglEnable 1), 1), ((R.expEnable 1), 2)]; s.expEnabled (expNo l e) = true ∧ s.sglInjected l e = none ∧ respValid e r = true ∧ s.d.raised = [] ∧ s.drives = false ∧ (∀ x ∈ s.d.stamps, x.inp ≠ Input.aux l e r)) := by decide +kernel

theorem witness_ExpanderLossAndReturn :
  (let l : Lnk := 1; let e : Exp := 1; let x := expNo l e; let s : State := st [((R.expBad x), 12), ((R.expBad 33), 12)] [((R.sglEnable 1), 1), ((R.expEnable 1), 2)]; s.expEnabled x = true ∧ s.expLost x = false ∧ 12 ≤ s.o (R.expBad x)) ∧
  (let l : Lnk := 1; let e : Exp := 1; let x := expNo l e; let s : State := st [((R.expGood x), 4), ((R.expBad 33), 12), ((R.expFlags 33), 8), ((R.expGood 33), 4)] [((R.sglEnable 1), 1), ((R.expEnable 1), 2)]; s.expLost x = true ∧ 4 ≤ s.o (R.expGood x)) ∧
  (let l : Lnk := 1; let s : State := st [((R.expBad 33), 12)] [((R.sglEnable l), 1), ((R.sglEnable 1), 1), ((R.expEnable 1), 2)]; s.a (R.sglEnable l) = 1 ∧ s.o (R.sglLinkState l) ≠ 3 ∧ (∃ f, f < 32 ∧ s.expEnabled (expNo l f) = true) ∧ (∀ f, f < 32 → s.expEnabled (expNo l f) = true → 12 ≤ s.o (R.expBad (expNo l f)))) := by decide +kernel

theorem witness_ReadbackApplies :
  (let l : Lnk := 1; let e : Exp := 1; let x := expNo l e; let y := 5; y < 128 ∧ y ≠ x) := by decide +kernel

theorem witness_OverCurrentEvents :
  (let n : Ch := 1; let window : Nat := 255; let s : State := st [(R.caRun, 1), ((R.chState n), 2)] [((R.ocWin n), 8), ((R.iFs n), 100000), ((R.ocThresh n), 50000)]; s.o R.caRun = 1 ∧ s.modulates n = true ∧ s.ocCondOf n window = 1 ∧ s.o (R.ocPos n) ≠ 1) ∧
  (let n : Ch := 1; let window : Nat := 0; let s : State := st [(R.caRun, 1), ((R.chState n), 2)] [((R.ocWin n), 8), ((R.iFs n), 100000), ((R.ocThresh n), 50000)]; s.o R.caRun = 1 ∧ s.modulates n = true ∧ s.ocCondOf n window = 2 ∧ s.o (R.ocNeg n) ≠ 1) ∧
  (let n : Ch := 1; let window : Nat := 63; let s : State := st [(R.caRun, 1), ((R.chState n), 1)] [((R.ocWin n), 8), ((R.iFs n), 100000), ((R.ocThresh n), 50000)]; s.o R.caRun = 1 ∧ s.modulates n = false ∧ s.ocCondOf n window ≠ 0 ∧ s.ocCondOf n (window / 2) ≠ s.ocCondOf n window) := by decide +kernel

theorem witness_HiccupAndRetry :
  (let n : Ch := 1; let m := n.val / 4; let s : State := st [(R.now, 2000000000000), ((R.chState n), 2), ((R.cbcCnt n), 100000)] []; s.o (R.modConn (n / 4)) ≤ 24 ∧ s.modulates n = true ∧ s.a (R.cbcN m) ≤ s.o (R.cbcCnt n)) ∧
  (let n : Ch := 1; let m := n.val / 4; let s : State := st [((R.tripCauses m), 0), (R.now, 2000000000000), ((R.chState n), 4)] []; s.o (R.modConn (n / 4)) ≤ 24 ∧ s.hiccupOver n = true ∧ s.o (R.tripCauses m) = 0) ∧
  (let n : Ch := 1; let m := n.val / 4; let s : State := st [((R.chState n), csClosed), (R.now, 2000000000000), ((R.cleanNs n), 2000000000000)] []; s.o (R.modConn (n / 4)) ≤ 24 ∧ s.cs n = csClosed ∧ s.a (R.cleanRunUs m) * 1000 ≤ s.o (R.cleanNs n)) := by decide +kernel

theorem witness_ModuleTripsAndReleases :
  (let m : Pm := 1; let s : State := st [((R.ovCnt m), 2), (R.now, 2000000000000)] []; s.o (R.modConn m) ≤ 24 ∧ 2 ≤ s.o (R.ovCnt m) ∧ bit (s.o (R.tripCauses m)) tLinkOv = false) ∧
  (let m : Pm := 1; let s : State := st [((R.tripCauses m), 2^(tLinkOv : Nat)), ((R.ovLow m), 5000), (R.now, 2000000000000)] []; bit (s.o (R.tripCauses m)) tLinkOv = true ∧ 5000 ≤ s.o (R.ovLow m)) ∧
  (let m : Pm := 1; let s : State := st [((R.tlatch m), 1), ((R.tlNs m), 0), (R.now, 2000000000000)] []; s.o (R.tlatch m) = 1 ∧ 0 ≤ s.o (R.tlNs m) ∧ s.a (R.tlatchDwellUs m) ≤ s.usSince (s.o (R.tlNs m))) := by decide +kernel

theorem witness_LatchClearing :
  (let m : Pm := 1; let u : State := st [((R.tripCauses m), 1)] []; u.o (R.tripCauses m) ≠ 0) ∧
  (let m : Pm := 1; let n := 5; let u : State := st [((R.tripCauses m), 0), ((R.chState n), csLatched), ((R.chState 5), 5)] []; u.o (R.tripCauses m) = 0 ∧ u.cs n = csLatched ∧ n ∈ legs m) ∧
  (let m : Pm := 1; let n := 5; let u : State := st [((R.tripCauses m), 0)] []; u.o (R.tripCauses m) = 0 ∧ u.cs n ≠ csLatched ∧ n ∈ legs m) := by decide +kernel

theorem witness_BurstWindows :
  (let k : Out := 1; let s : State := st [((R.llMode k), 2), ((R.llCount k), 0), (R.frameNo, 50000)] []; s.o (R.llMode k) = 2 ∧ 0 ≤ s.o (R.llCount k) ∧ s.halfEnd k (s.o (R.llCount k)).toNat ≤ (s.gNext - s.o (R.llStart k)) % 2147483648000) := by decide +kernel

theorem witness_EngineTests :
  (let e : Isl := 3; let s : State := st [(R.caRun, 1), (R.frameNo, 1240)] []; s.Fits ∧ s.o R.caRun = 1 ∧ s.o R.inGap ≠ 1 ∧ s.frame % 1000 = 80 * e.val ∧ s.o R.engTestFrame ≠ (s.frame : Int) ∧ s.injects (148 + e.val) = false ∧ bit (s.o R.engineFailMask) e = false) ∧
  (let e : Isl := 3; let s : State := st [(R.caRun, 1), (R.engineFailMask, 2^(e : Nat)), (R.frameNo, 1240)] []; s.Fits ∧ s.o R.caRun = 1 ∧ s.o R.inGap ≠ 1 ∧ s.frame % 1000 = 80 * e.val ∧ s.o R.engTestFrame ≠ (s.frame : Int) ∧ s.injects (148 + e.val) = false ∧ bit (s.o R.engineFailMask) e = true) :=
  ⟨⟨⟨by decide +kernel, by decide +kernel, by decide +kernel⟩, by decide +kernel, by decide +kernel, by decide +kernel, by decide +kernel, by decide +kernel, by decide +kernel⟩,
   ⟨⟨by decide +kernel, by decide +kernel, by decide +kernel⟩, by decide +kernel, by decide +kernel, by decide +kernel, by decide +kernel, by decide +kernel, by decide +kernel⟩⟩

theorem witness_DegradeFlagsEnd :
  (let b : Fin 8 := 1; let s : State := st [(R.degradeFlags, 2^(b : Nat)), (R.frameNo, 2000)] [] 0; s.next.val = 0 ∧ 1 ≤ b.val ∧ b.val ≠ 7 ∧ bit (s.o R.degradeFlags) b = true ∧ s.degradeCause b = false ∧ 1000 ≤ ((s.frame : Int) - s.o (R.degLast b)) % 4294967296) := by decide +kernel

theorem witness_EnergyIsConserved :
  (let l : List (Nat × Int) := [(1, 5000000000000000), (2, 7), (1, -300), (1, 3000000000000000)]; let q : Nat := 1; let s : State := st [((R.mResImp q), 0)] []; (∀ x ∈ l, x.1 < 26) ∧ q < 26 ∧ 0 ≤ s.o (R.mResImp q) ∧ s.o (R.mResImp q) < mwhK) ∧
  (let l : List (Nat × Int) := [(1, 5000000000000000), (2, 7), (1, -300), (1, 3000000000000000)]; let q : Nat := 1; let s : State := st [((R.mResExp q), 0)] []; (∀ x ∈ l, x.1 < 26) ∧ q < 26 ∧ 0 ≤ s.o (R.mResExp q) ∧ s.o (R.mResExp q) < mwhK) := by decide +kernel

theorem witness_MeterSamples :
  (let s : State := st [(R.mtState, 2)] []; s.Fits ∧ s.mtRuns = true) :=
  ⟨⟨by decide +kernel, by decide +kernel, by decide +kernel⟩, by decide +kernel⟩

theorem witness_IntervalsAreLatched :
  (let s : State := st [(R.mtLatchDue, 1), (R.mtState, 2)] []; s.Fits ∧ s.mtRuns = true ∧ s.o R.mtLatchDue = 1) :=
  ⟨⟨by decide +kernel, by decide +kernel, by decide +kernel⟩, by decide +kernel, by decide +kernel⟩

theorem witness_TicksComeFromTheMains :
  (let s : State := st [(R.zcPend, 1), (R.mtState, 2)] []; s.Fits ∧ s.mtRuns = true ∧ s.o R.zcPend = 1 ∧ s.o R.mtNoMains ≠ 1) ∧
  (let s : State := st [(R.zcPend, 1), (R.mtNoMains, 1), (R.mtState, 2)] []; s.Fits ∧ s.mtRuns = true ∧ s.o R.zcPend = 1 ∧ s.o R.mtNoMains = 1 ∧ s.o R.zcRun < 3) ∧
  (let s : State := st [(R.zcPend, 1), (R.mtNoMains, 1), (R.zcRun, 3), (R.mtState, 2)] []; s.Fits ∧ s.mtRuns = true ∧ s.o R.zcPend = 1 ∧ s.o R.mtNoMains = 1 ∧ 3 ≤ s.o R.zcRun) ∧
  (let s : State := st [(R.mtState, 2), (R.mtNo, 1000000)] []; s.Fits ∧ s.mtRuns = true ∧ s.o R.mtNoMains ≠ 1 ∧ s.a R.zcTimeoutUs ≤ 125 * (s.o R.mtNo - max 0 (s.o R.zcCounted))) ∧
  (let s : State := st [(R.tickSource, 1), (R.mtState, 2), (R.mtNo, 1000)] []; s.Fits ∧ s.mtRuns = true ∧ s.o R.tickSource = 1 ∧ 160 ≤ s.o R.mtNo - s.o R.mtLastTick) :=
  ⟨⟨⟨by decide +kernel, by decide +kernel, by decide +kernel⟩, by decide +kernel, by decide +kernel, by decide +kernel⟩,
   ⟨⟨by decide +kernel, by decide +kernel, by decide +kernel⟩, by decide +kernel, by decide +kernel, by decide +kernel, by decide +kernel⟩,
   ⟨⟨by decide +kernel, by decide +kernel, by decide +kernel⟩, by decide +kernel, by decide +kernel, by decide +kernel, by decide +kernel⟩,
   ⟨⟨by decide +kernel, by decide +kernel, by decide +kernel⟩, by decide +kernel, by decide +kernel, by decide +kernel⟩,
   ⟨⟨by decide +kernel, by decide +kernel, by decide +kernel⟩, by decide +kernel, by decide +kernel, by decide +kernel⟩⟩

theorem witness_MeterReadingsAndPulses :
  (let s : State := st [(R.mtInstN, 2), (R.mtState, 2), (R.now, 2000000000000)] []; s.Fits ∧ s.mtRuns = true ∧ 2 ≤ s.o R.mtInstN ∧ s.drives = true) ∧
  (let s : State := st [(R.mtInstN, 2), (R.mtState, 2), (R.now, 2000000000000), (R.pairRole, 2)] []; s.mtRuns = true ∧ 2 ≤ s.o R.mtInstN ∧ s.drives = false) ∧
  (let j : Fin 8 := 1; let s : State := st [((R.pulseBacklog j), 1), (R.mtState, 2), (R.now, 2000000000000)] []; s.o (R.puHigh j) ≠ 1 ∧ 1 ≤ s.o (R.pulseBacklog j) ∧ (s.o (R.puNs j) < 0 ∨ s.o (R.puW j) ≤ s.usSince (s.o (R.puNs j)))) ∧
  (let j : Fin 8 := 1; let s : State := st [((R.puHigh j), 1), (R.mtState, 2), (R.now, 2000000000000)] []; s.o (R.puHigh j) = 1 ∧ s.o (R.puW j) ≤ s.usSince (s.o (R.puNs j))) :=
  ⟨⟨⟨by decide +kernel, by decide +kernel, by decide +kernel⟩, by decide +kernel, by decide +kernel, by decide +kernel⟩,
   by decide +kernel,
   by decide +kernel,
   by decide +kernel⟩

theorem witness_TotalsAreSaved :
  (let pfwIn := (true : Bool); let vmetLow := (true : Bool); let s : State := st [(R.mtState, 2)] []; s.o R.mtState = 2 ∧ (pfwIn = true ∧ s.a R.pfwMode ≠ 1 ∨ vmetLow = true ∧ s.a R.pfwMode ≠ 2)) ∧
  (let s : State := st [(R.mtState, 3)] []; s.o R.mtState = 3) ∧
  (let s : State := st [(R.mtState, 2), (R.now, 2000000000000)] []; s.mtRuns = true ∧ 60000000 ≤ s.usSince (s.o R.mtSaveNs)) := by decide +kernel

theorem witness_MetersSurviveTheirPower :
  (let s : State := st [(R.mtState, 2)] []; s.Fits ∧ s.mtRuns = true) ∧
  (let s : State := st [(R.mtState, 1), ((R.islandState iMT), 1)] [] 0 (fun d => { d with mtTotals := none }); s.Fits ∧ s.o R.mtState = 1 ∧ s.island iMT ≠ 4 ∧ s.island iMT ≠ 5 ∧ s.d.mtTotals = none) ∧
  (let sv := (⟨[], 0, 0, [], []⟩ : MtSave); let s : State := st [(R.mtState, 1), ((R.islandState iMT), 1)] []; s.Fits ∧ s.o R.mtState = 1 ∧ s.island iMT ≠ 4 ∧ s.island iMT ≠ 5 ∧ s.d.mtTotals ≠ none ∧ (s.d.mtClose = some sv ∨ s.d.mtClose = none ∧ s.d.mtTotals = some sv)) :=
  ⟨⟨⟨by decide +kernel, by decide +kernel, by decide +kernel⟩, by decide +kernel⟩,
   ⟨⟨by decide +kernel, by decide +kernel, by decide +kernel⟩, by decide +kernel, by decide +kernel, by decide +kernel, by decide +kernel⟩,
   ⟨⟨by decide +kernel, by decide +kernel, by decide +kernel⟩, by decide +kernel, by decide +kernel, by decide +kernel, by decide +kernel, by decide +kernel⟩⟩

theorem witness_LedgerEntriesAreWritten :
  (let kind : Nat := 8; let s : State := st [(R.ledgerSeq, 900)] []; (kind = 1 ∨ kind = 8) ∧ s.ledgerLeft ≤ 32) ∧
  (let kind : Nat := 2; let s : State := st [(R.ledgerSeq, 900)] []; kind ≠ 1 ∧ kind ≠ 8 ∧ s.ledgerLeft ≤ 0) ∧
  (let kind : Nat := 2; let s : State := st [] []; ((if kind = 1 ∨ kind = 8 then 32 else 0) < s.ledgerLeft)) ∧
  (let e := (⟨1,2,3,4,5,6,7,2,9,10,11,12,13,14,15,16,17,18,19⟩ : Entry); let rest := []; let s : State := st [] [] 0 (fun d => { d with ledgerDue := [e] }); s.d.ledgerDue = e :: rest) := by decide +kernel

theorem witness_HousekeepingRounds :
  (let s : State := st [((R.islandState iHK), 2), (R.hkRuns, 0)] []; s.o R.hkRuns ≠ 1 ∧ s.island iHK ≠ 0 ∧ (s.o R.hkStart < 0 ∨ 100000 ≤ s.usSince (s.o R.hkStart))) ∧
  (let s : State := st [(R.hkRuns, 1), (R.frameNo, 7)] [] 0; s.Fits ∧ s.o R.hkRuns = 1 ∧ s.next.val = 0 ∧ s.o R.hkFrame ≠ (s.frame : Int)) :=
  ⟨by decide +kernel,
   ⟨⟨by decide +kernel, by decide +kernel, by decide +kernel⟩, by decide +kernel, by decide +kernel, by decide +kernel⟩⟩

theorem witness_ThrottlingSteps :
  (let s : State := st [(R.frameNo, 1000)] [] 0; s.Fits ∧ (∀ m, m < 48 → s.o (R.modConn m) ≤ 24) ∧ s.next.val = 0 ∧ s.frame % 1000 = 0 ∧ s.o R.thrFrame ≠ (s.frame : Int)) :=
  ⟨⟨by decide +kernel, by decide +kernel, by decide +kernel⟩, by decide +kernel, by decide +kernel, by decide +kernel, by decide +kernel⟩

theorem witness_ThrottleMovesOneStep :
  (let s0 : Int := 3; let above : Bool := true; 0 ≤ s0 ∧ s0 ≤ 16 ∧ above = true) ∧
  (let s0 : Int := 3; let above : Bool := false; let below : Bool := false; 0 ≤ s0 ∧ s0 ≤ 16 ∧ above = false ∧ below = false) ∧
  (let s0 : Int := 3; let relNs : Int := 0; let now : Int := 5000000; let releaseUs : Int := 1000; let above : Bool := false; let below : Bool := true; let r := throttle s0 above below relNs now releaseUs; 0 ≤ s0 ∧ s0 ≤ 16 ∧ above = false ∧ r.1 < s0) := by decide +kernel

theorem witness_SwitchesFollowTheirSources :
  (let j : Fs := 1; let high : Bool := true; let s : State := st [] []; bit (s.o R.fsDinState) j ≠ high) ∧
  (let j : Fs := 1; let k := R.llMode 1; let s : State := st [] []; k ≠ R.fsCmd (s.fsGov j) ∧ (∀ p ∈ switchRegs, ¬ p k)) :=
  ⟨by decide +kernel,
   ⟨by decide +kernel, by simp only [switchRegs, List.forall_mem_cons, List.not_mem_nil, false_imp_iff, implies_true, and_true, fam]; decide +kernel⟩⟩

theorem witness_FieldSupplyStates :
  (let s : State := st [(R.fldState, 1)] []; s.o R.fldState ≠ 0) ∧
  (let s : State := st [(R.fldState, 2)] []; s.o R.fldState ≠ 1) ∧
  (let s : State := st [] []; s.o R.fldState ≠ 4) ∧
  (let s : State := st [] []; s.o R.fldState ≠ 3) ∧
  (let s : State := st [(R.fldState, 2)] []; s.o R.fldState = 2) ∧
  (let s : State := st [(R.fldState, 5)] []; s.o R.fldState = 5) := by decide +kernel

theorem witness_SwitchTripsAndRestarts :
  (let j : Fs := 1; let s : State := st [(R.fldState, 2), ((R.fsState 1), 2), (R.now, 2000000000000)] []; let g := s.fsGov j; FaultsTyped s ∧ s.fldRuns = true ∧ s.o (R.fsState g) = 2 ∧ 100000 ≤ s.usSince (s.o (R.fsOffNs g))) ∧
  (let j : Fs := 1; let s : State := st [((R.fsOn j), 1), ((R.fsOnNs j), 0), (R.fldState, 2), ((R.fsState 1), 2), (R.now, 2000000000000)] []; FaultsTyped s ∧ s.fldRuns = true ∧ s.o (R.fsOn j) = 1 ∧ 0 ≤ s.o (R.fsOnNs j) ∧ 10000000 ≤ s.usSince (s.o (R.fsOnNs j))) :=
  ⟨⟨by unfold FaultsTyped; decide +kernel, by decide +kernel, by decide +kernel, by decide +kernel⟩,
   ⟨by unfold FaultsTyped; decide +kernel, by decide +kernel, by decide +kernel, by decide +kernel, by decide +kernel⟩⟩

theorem witness_SwitchDiagnostics :
  (let j : Fs := 1; let s : State := st [((R.fsOn j), 1), (R.fldState, 2), (R.now, 2000000000000)] [((R.fsOlOnMa 1), 5), ((R.fsOffDiag 1), 1)]; FaultsTyped s ∧ s.fldRuns = true ∧ s.o (R.fsOn j) = 1 ∧ s.a (R.fsOlOnMa (s.fsGov j)) ≠ 0) ∧
  (let j : Fs := 1; let s : State := st [(R.fldState, 2), (R.now, 2000000000000)] [((R.fsOlOnMa 1), 5), ((R.fsOffDiag 1), 1)]; FaultsTyped s ∧ s.fldRuns = true ∧ s.o (R.fsOn j) ≠ 1 ∧ s.a (R.fsOffDiag (s.fsGov j)) = 1 ∧ (s.o (R.fsTestNs j) < 0 ∨ 100000 ≤ s.usSince (s.o (R.fsTestNs j)))) :=
  ⟨⟨by unfold FaultsTyped; decide +kernel, by decide +kernel, by decide +kernel, by decide +kernel⟩,
   ⟨by unfold FaultsTyped; decide +kernel, by decide +kernel, by decide +kernel, by decide +kernel, by decide +kernel⟩⟩

theorem witness_StringIdentity :
  (let t : Bs := 1; let r := (⟨1200⟩ : BatRead); let p := true; let c := (7:Nat); let s : State := st [] [((R.bsIdMode t), 2)]; s.Fits ∧ s.drives = true ∧ s.batRead t r = some (p, c) ∧ batSeen p c ≠ s.o (R.bsSeen t)) ∧
  (let t : Bs := 1; let s : State := st [((R.bsState t), bsUnassigned)] []; let st := s.o (R.bsState t); s.Fits ∧ st = bsUnassigned) ∧
  (let t : Bs := 1; let p := false; let s : State := st [((R.bsState t), bsRun)] []; let st := s.o (R.bsState t); s.Fits ∧ st ≠ bsUnassigned ∧ st ≠ bsAbsent ∧ p = false) ∧
  (let t : Bs := 1; let p := true; let c := (0:Nat); let s : State := st [((R.bsState t), bsRun)] [((R.bsIdMode t), 2)]; let st := s.o (R.bsState t); s.Fits ∧ st ≠ bsUnassigned ∧ p = true ∧ s.a (R.bsIdMode t) = 2 ∧ c = 0) ∧
  (let t : Bs := 1; let p := true; let c := (5:Nat); let s : State := st [((R.bsState t), bsRun)] []; let st := s.o (R.bsState t); s.Fits ∧ st ≠ bsUnassigned ∧ p = true ∧ (s.a (R.bsIdMode t) ≠ 2 ∨ c ≠ 0)) ∧
  (let t : Bs := 1; let p := true; let m := 7; let n := 29; let s : State := st [((R.bsState t), bsRun)] [((R.batPort 7), 1), ((R.batString 7), 1)]; let st := s.o (R.bsState t); s.Fits ∧ st ≠ bsUnassigned ∧ (p = true ∨ st ≠ bsAbsent) ∧ s.bsCarrier t = some m ∧ n ∈ legs m) ∧
  (let t : Bs := 1; let i := 3; let s : State := st [] []; s.Fits ∧ i < 16 ∧ i ≠ t.val) :=
  ⟨⟨⟨by decide +kernel, by decide +kernel, by decide +kernel⟩, by decide +kernel, by decide +kernel, by decide +kernel⟩,
   ⟨⟨by decide +kernel, by decide +kernel, by decide +kernel⟩, by decide +kernel⟩,
   ⟨⟨by decide +kernel, by decide +kernel, by decide +kernel⟩, by decide +kernel, by decide +kernel, by decide +kernel⟩,
   ⟨⟨by decide +kernel, by decide +kernel, by decide +kernel⟩, by decide +kernel, by decide +kernel, by decide +kernel, by decide +kernel⟩,
   ⟨⟨by decide +kernel, by decide +kernel, by decide +kernel⟩, by decide +kernel, by decide +kernel, by decide +kernel⟩,
   ⟨⟨by decide +kernel, by decide +kernel, by decide +kernel⟩, by decide +kernel, by decide +kernel, by decide +kernel, by decide +kernel⟩,
   ⟨⟨by decide +kernel, by decide +kernel, by decide +kernel⟩, by decide +kernel, by decide +kernel⟩⟩

theorem witness_StringFoliosAreSaved :
  (let t : Bs := 1; let s : State := st [(R.now, 2000000000000), ((R.bsState t), bsRun)] []; s.o (R.bsState t) ≠ bsUnassigned ∧ 60000000 ≤ s.usSince (s.o (R.bsSaveNs t))) := by decide +kernel

theorem witness_StringsAreCounted :
  (let s : State := st [(R.frameNo, 7)] []; s.drives = true ∧ s.o R.estFrame ≠ (s.frame : Int) ∧ s.o R.apDown ≠ 1) := by decide +kernel

theorem witness_StringsFindTheirCharge :
  (let t : Bs := 1; let s : State := st [((R.bsState t), bsSettling), ((R.bsCInUse t), 100000), (R.now, 2000000000000), ((R.bsKeep t), 1)] []; s.drives = true ∧ norm (R.bsFlags t) (s.o (R.bsFlags t)) = s.o (R.bsFlags t) ∧ s.o (R.bsState t) = bsSettling ∧ 10000000 ≤ s.usSince (s.o (R.bsPresNs t)) ∧ (s.o (R.bsKeep t) = 1 ∨ s.bsResting t = true)) ∧
  (let t : Bs := 1; let s : State := st [((R.bsRestNs t), 0), ((R.bsState t), bsRun), ((R.bsCInUse t), 100000), (R.now, 20000000000000), ((R.bsIMean t), 0)] []; let counts := s.bsCounts t = true; s.drives = true ∧ norm (R.bsFlags t) (s.o (R.bsFlags t)) = s.o (R.bsFlags t) ∧ counts ∧ 0 ≤ s.o (R.bsRestNs t) ∧ s.bsResting t = true ∧ 1800000000 * (s.o (R.bsRestCnt t) + 1) ≤ s.usSince (s.o (R.bsRestNs t)) ∧ s.ocvCharge t = none) ∧
  (let t : Bs := 1; let s : State := st [((R.bsRestNs t), 0), ((R.bsState t), bsRun), ((R.bsCInUse t), 100000), (R.now, 20000000000000), ((R.bsIMean t), 0)] [((R.ocv t 0), 3000), ((R.ocv t 1), 3100), ((R.ocv t 10), 4000)]; let counts := s.bsCounts t = true; let q := ((s.ocvCharge t).getD 0); s.drives = true ∧ norm (R.bsFlags t) (s.o (R.bsFlags t)) = s.o (R.bsFlags t) ∧ counts ∧ 0 ≤ s.o (R.bsRestNs t) ∧ s.bsResting t = true ∧ 1800000000 * (s.o (R.bsRestCnt t) + 1) ≤ s.usSince (s.o (R.bsRestNs t)) ∧ s.ocvCharge t = some q) ∧
  (let t : Bs := 1; let s : State := st [((R.bsFullNs t), 0), ((R.bsState t), bsRun), ((R.bsCInUse t), 100000), (R.now, 2000000000000), ((R.bsV t), 500), ((R.bsIMean t), -200)] [((R.bsVFull t), 400), ((R.bsIFull t), 300)]; let counts := s.bsCounts t = true; s.drives = true ∧ norm (R.bsFlags t) (s.o (R.bsFlags t)) = s.o (R.bsFlags t) ∧ counts ∧ s.bsIsFull t = true ∧ 0 ≤ s.o (R.bsFullNs t) ∧ 60000000 ≤ s.usSince (s.o (R.bsFullNs t))) ∧
  (let t : Bs := 1; let s : State := st [((R.bsEmptyNs t), 0), ((R.bsState t), bsRun), ((R.bsCInUse t), 100000), (R.now, 2000000000000), ((R.bsV t), 500), ((R.bsIMean t), 200)] [((R.bsVEmpty t), 600)]; let counts := s.bsCounts t = true; s.drives = true ∧ norm (R.bsFlags t) (s.o (R.bsFlags t)) = s.o (R.bsFlags t) ∧ counts ∧ s.bsIsEmpty t = true ∧ 0 ≤ s.o (R.bsEmptyNs t) ∧ 10000000 ≤ s.usSince (s.o (R.bsEmptyNs t))) ∧
  (let t : Bs := 1; let s : State := st [((R.bsSinceMs t), 259200000), ((R.bsState t), bsRun), ((R.bsCInUse t), 100000), (R.now, 2000000000000)] []; let counts := s.bsCounts t = true; s.drives = true ∧ norm (R.bsFlags t) (s.o (R.bsFlags t)) = s.o (R.bsFlags t) ∧ counts ∧ bit (s.o (R.bsFlags t)) 2 = false ∧ 259200000 ≤ s.o (R.bsSinceMs t)) := by decide +kernel

theorem witness_CanPortStates :
  (let p : Port := 1; let s : State := st [((R.portState p), 1), ((R.islandState iNW), 2)] []; s.onBus = true ∧ (s.o (R.portState p) = 1 ∨ s.o (R.portState p) = 2)) ∧
  (let p : Port := 1; let s : State := st [((R.portState p), 3), ((R.islandState iNW), 2), ((R.canRecover p), 1)] []; s.o (R.portState p) = 3 ∧ (s.a (R.busoffAuto p) = 1 ∨ s.o (R.canRecover p) = 1)) ∧
  (let p : Port := 1; let s : State := st [((R.canSleep p), 1), ((R.canSending p), 0), ((R.portState p), 1), ((R.islandState iNW), 2)] []; s.o (R.canSleep p) = 1 ∧ s.o (R.canSending p) = 0 ∧ (∀ b, b < 3 → s.txbBusy p b = false) ∧ (s.o (R.portState p) = 1 ∨ s.o (R.portState p) = 2 ∨ s.o (R.portState p) = 5)) ∧
  (let p : Port := 1; let us : Nat := 500; let s : State := st [((R.islandState iNW), 2), ((R.portState p), 4)] [((R.wakeMode p), 0)]; (s.island iNW = 2 ∨ s.island iNW = 3) ∧ s.o (R.portState p) = 4 ∧ s.o (R.canRejoin p) ≠ 1 ∧ s.a (R.wakeMode p) = 0 ∧ s.a (R.wakeFilterUs p) ≤ us) ∧
  (let p : Port := 1; let f := (⟨false, true, false, false, false, 8, 0x123, [1,2,3,4,5,6,7,8], 5000⟩ : CanFrame); let s : State := st [((R.islandState iNW), 2), ((R.portState p), 4)] [((R.wakeMode p), 1)]; (s.island iNW = 2 ∨ s.island iNW = 3) ∧ s.o (R.portState p) = 4 ∧ s.o (R.canRejoin p) ≠ 1 ∧ s.a (R.wakeMode p) = 1 ∧ s.wakesBy p f = true) ∧
  (let p : Port := 1; let s : State := st [((R.canRejoin p), 1), ((R.portState p), 1), ((R.islandState iNW), 2)] [((R.canEnable p), 1)]; s.o (R.canRejoin p) = 1 ∧ s.canRuns p = true) := by decide +kernel

theorem witness_CanTransmits :
  (let p : Port := 1; let s : State := st [((R.canSending p), 0), ((R.portState p), 1), (R.now, 9000)] []; s.onBus = true ∧ (s.o (R.portState p) = 1 ∨ s.o (R.portState p) = 2) ∧ s.o (R.canSending p) = 0 ∧ s.o (R.canStopDue p) ≠ 1 ∧ s.txbChoice p = none) ∧
  (let p : Port := 1; let b := 1; let c := 2; let s : State := st [((R.canSending p), 0), ((R.portState p), 1), (R.now, 9000), ((R.txbState (txb p 1)), 2), ((R.txbState (txb p 2)), 2)] [((R.txGuardUs p), 0)]; s.onBus = true ∧ (s.o (R.portState p) = 1 ∨ s.o (R.portState p) = 2) ∧ s.o (R.canSending p) = 0 ∧ s.o (R.canStopDue p) ≠ 1 ∧ s.txbChoice p = some b ∧ s.d.raised = [] ∧ s.a (R.txGuardUs p) = 0 ∧ c < 3 ∧ s.txbEligible p c = true) ∧
  (let p : Port := 1; let b : Buf := 1; let s : State := st [((R.canSending p), 2), ((R.portState p), 1), (R.now, 9000)] []; s.o (R.canSending p) = b.val + 1 ∧ s.o (R.canStopDue p) ≠ 1 ∧ s.o (R.canTec p) ≤ 255 ∧ (s.o (R.portState p) = 1 ∨ s.o (R.portState p) = 2)) ∧
  (let p : Port := 1; let b : Buf := 1; let x := txb p b; let s : State := st [((R.canSending p), b.val + 1), ((R.portState p), 1), (R.now, 9000), ((R.txbState (txb p b)), 1)] []; s.o (R.canSending p) = b.val + 1 ∧ s.o (R.canStopDue p) ≠ 1 ∧ s.o (R.canTec p) ≤ 255 ∧ s.o (R.txbStop x) ≠ 1) ∧
  (let p : Port := 1; let b : Buf := 1; let x := txb p b; let s : State := st [((R.canSending p), b.val + 1), ((R.txbStop x), 1), ((R.portState p), 1), (R.now, 9000)] []; s.o (R.canSending p) = b.val + 1 ∧ s.o (R.canStopDue p) ≠ 1 ∧ s.o (R.canTec p) ≤ 255 ∧ s.o (R.txbStop x) = 1) ∧
  (let p : Port := 1; let b : Buf := 1; let s : State := st [((R.txbState (txb p b)), 1), ((R.portState p), 1), (R.now, 9000)] []; s.o (R.txbState (txb p b)) = 1 ∧ s.o (R.txbTime (txb p b)) ≤ s.site) := by decide +kernel

theorem witness_CanReceives :
  (let p : Port := 1; let f : CanFrame := (⟨false, true, true, false, false, 8, 0x123, [1,2,3,4,5,6,7,8], 5000⟩ : CanFrame); let s : State := st [((R.islandState iNW), 2), ((R.portState p), 1)] [((R.canEnable p), 1), ((R.canMode p), 2)]; (s.island iNW = 2 ∨ s.island iNW = 3) ∧ s.canRuns p = true ∧ s.onBus = true ∧ (s.o (R.portState p) = 1 ∨ s.o (R.portState p) = 2) ∧ (f.fdf = true → s.a (R.canMode p) ≠ 0) ∧ s.o (R.canTec p) ≤ 255 ∧ s.isLotId p f = false ∧ s.feOf p f = none) ∧
  (let p : Port := 1; let f : CanFrame := (⟨false, true, true, false, false, 8, 0x123, [1,2,3,4,5,6,7,8], 5000⟩ : CanFrame); let r := (1:Nat); let s : State := st [((R.islandState iNW), 2), ((R.portState p), 1)] [((R.canEnable p), 1), ((R.canMode p), 2), (R.fePort, 2), ((R.feEnable 1), 1), (R.feIdBase, 288)]; (s.island iNW = 2 ∨ s.island iNW = 3) ∧ s.canRuns p = true ∧ s.onBus = true ∧ (s.o (R.portState p) = 1 ∨ s.o (R.portState p) = 2) ∧ (f.fdf = true → s.a (R.canMode p) ≠ 0) ∧ s.o (R.canTec p) ≤ 255 ∧ s.isLotId p f = false ∧ s.feOf p f = some r) ∧
  (let p : Port := 1; let f : CanFrame := (⟨false, true, true, false, false, 8, 0x123, [1,2,3,4,5,6,7,8], 5000⟩ : CanFrame); let s : State := st [((R.islandState iNW), 2), ((R.portState p), 1)] [((R.canEnable p), 1), ((R.canMode p), 2), ((R.fltEnable (64*1+3)), 1), (R.canLotPort, 2), (R.reqIdBase, 290), (R.nodeId, 1)]; (s.island iNW = 2 ∨ s.island iNW = 3) ∧ s.canRuns p = true ∧ s.onBus = true ∧ (s.o (R.portState p) = 1 ∨ s.o (R.portState p) = 2) ∧ (f.fdf = true → s.a (R.canMode p) ≠ 0) ∧ s.o (R.canTec p) ≤ 255 ∧ s.isLotId p f = true) ∧
  (let p : Port := 1; let f : CanFrame := (⟨false, true, true, false, false, 8, 0x123, [1,2,3,4,5,6,7,8], 5000⟩ : CanFrame); let s : State := st [((R.portState p), 1)] [((R.canEnable p), 1), ((R.canMode p), 2)]; (∀ i, i < 64 → s.fltAdmits (64 * p + i) f = false)) ∧
  (let p : Port := 1; let f : CanFrame := (⟨false, true, true, false, false, 8, 0x123, [1,2,3,4,5,6,7,8], 5000⟩ : CanFrame); let i := 3; let s : State := st [((R.portState p), 1)] [((R.canEnable p), 1), ((R.canMode p), 2), ((R.fltEnable (64*1+3)), 1), ((R.fltMask (64*1+3)), 0), ((R.fltFormat (64*1+3)), 0)]; i < 64 ∧ s.fltAdmits (64 * p + i) f = true ∧ (∀ j, j < i → s.fltAdmits (64 * p + j) f = false) ∧ s.d.raised = []) := by decide +kernel

theorem witness_FrontEnds :
  (let s : State := st [((R.islandState iNW), 2)] [(R.fePort, 1), ((R.feEnable 1), 1)] 0; s.next.val = 0 ∧ 1 ≤ s.a R.fePort ∧ s.a R.fePort ≤ 3 ∧ s.o R.feDone ≠ (s.frame : Int) ∧ s.o R.apDown ≠ 1 ∧ (s.frame : Int) % (max 1 (s.a R.fePeriodFrames)) = 0 ∧ s.island iNW ≠ 0) ∧
  (let r : Fe := 1; let s : State := st [((R.feState r), 3), (R.frameNo, 100000)] [((R.feEnable r), 1), ((R.feTimeoutFrames), 10)]; s.a (R.feEnable r) = 1 ∧ 2 ≤ s.o (R.feState r) ∧ s.o (R.feState r) ≤ 5 ∧ s.a R.feTimeoutFrames ≤ ((s.frame + 4294967296 - (s.o (R.feLast r)).toNat) % 4294967296 : Nat)) := by decide +kernel

theorem witness_MplFramesAreDecoded :
  (let addr : Nat := 5; let type : Nat := 1; let blocks : Nat := 2; let data : List Nat := [1,2,3,200,255]; addr < 64 ∧ type < 16 ∧ 1 ≤ blocks ∧ blocks ≤ 8 ∧ (∀ x ∈ data, x < 256)) := by decide +kernel

theorem witness_MplSends :
  (let s : State := st [(R.mplBcast, 1), (R.mplState, 1), ((R.islandState iNW), 2)] [(R.mplMode, 1), ((R.stAddr 3), 9)]; s.d.raised = [] ∧ s.mplReady 1 = true ∧ s.o R.mplBcast = 1) ∧
  (let s : State := st [(R.mplState, 1), ((R.islandState iNW), 2)] [(R.mplMode, 1), ((R.stAddr 3), 9)]; s.d.raised = [] ∧ s.mplReady 1 = true ∧ s.o R.mplBcast ≠ 1 ∧ s.mplFrom 1 ≠ 0) ∧
  (let s : State := st [(R.mplState, 1), ((R.islandState iNW), 2)] [(R.mplMode, 2), ((R.stAddr 3), 9)]; s.d.raised = [] ∧ s.mplReady 2 = true) := by decide +kernel

theorem witness_MplCrossings :
  (let ph : Fin 3 := 1; let s : State := st [(R.mplState, 1), ((R.islandState iNW), 2), (R.now, 30000000)] [(R.mplMode, 1), (R.mplPhaseSel, 1)]; let per := s.o R.now - s.o (R.mplDet ph); let counted := 0 ≤ s.o (R.mplDet ph) ∧ 7690000 ≤ per ∧ per ≤ 11110000; let ref := s.a R.mplPhaseSel = (ph.val : Int); s.a R.mplMode ≠ 0 ∧ s.island iNW ≠ 0 ∧ s.island iNW ≠ 4 ∧ s.injectsArg 174 ph = false ∧ 0 ≤ s.a R.mplPhaseSel ∧ s.a R.mplPhaseSel ≤ 2 ∧ (¬ counted) ∧ ref) ∧
  (let ph : Fin 3 := 2; let s : State := st [(R.mplState, 1), ((R.islandState iNW), 2), (R.now, 30000000)] [(R.mplMode, 1), (R.mplPhaseSel, 1)]; let per := s.o R.now - s.o (R.mplDet ph); let counted := 0 ≤ s.o (R.mplDet ph) ∧ 7690000 ≤ per ∧ per ≤ 11110000; let ref := s.a R.mplPhaseSel = (ph.val : Int); s.a R.mplMode ≠ 0 ∧ s.island iNW ≠ 0 ∧ s.island iNW ≠ 4 ∧ s.injectsArg 174 ph = false ∧ 0 ≤ s.a R.mplPhaseSel ∧ s.a R.mplPhaseSel ≤ 2 ∧ (¬ counted) ∧ (¬ ref)) ∧
  (let ph : Fin 3 := 1; let s : State := st [(R.mplState, 1), ((R.islandState iNW), 2), (R.now, 30000000), ((R.mplDet ph), 20000000)] [(R.mplMode, 1), (R.mplPhaseSel, 1)]; let per := s.o R.now - s.o (R.mplDet ph); let counted := 0 ≤ s.o (R.mplDet ph) ∧ 7690000 ≤ per ∧ per ≤ 11110000; s.a R.mplMode ≠ 0 ∧ s.island iNW ≠ 0 ∧ s.island iNW ≠ 4 ∧ s.injectsArg 174 ph = false ∧ 0 ≤ s.a R.mplPhaseSel ∧ s.a R.mplPhaseSel ≤ 2 ∧ counted) := by decide +kernel

theorem witness_MplRepliesAndLosses :
  (let s : State := st [(R.mplSt, 2), (R.mplWait, 6), (R.mplState, 1), ((R.islandState iNW), 2), (R.mplAddr, 9), (R.now, 900000000)] [(R.mplMode, 1)]; s.o R.mplSt = 2 ∧ 6 ≤ s.o R.mplWait ∧ s.onBus = true) ∧
  (let s : State := st [(R.mplSt, 5), (R.mplState, 1), ((R.islandState iNW), 2), (R.mplAddr, 9), (R.now, 900000000), (R.mplWait, 151)] [(R.mplMode, 1)]; s.o R.mplSt = 5 ∧ (s.o R.mplAddr = 0 ∨ 151 ≤ s.o R.mplWait) ∧ s.onBus = true) ∧
  (let rx : List MplRx := []; let s : State := st [(R.mplState, 1), ((R.islandState iNW), 2), (R.mplSt, 2), (R.mplAddr, 9), (R.now, 900000000)] [(R.mplMode, 1)]; let use := rx.filter fun x => s.a R.mplPhases = 1 || decide ((x.phase.val : Int) = s.a R.mplPhaseSel); let best := mplBest (use.map fun x => (x.phase.val, mplSee x.bits)); s.a R.mplMode ≠ 0 ∧ s.o R.mplState = 1 ∧ (s.o R.mplSt = 2 ∨ s.o R.mplSt = 5) ∧ s.onBus = true ∧ best = none) ∧
  (let rx : List MplRx := [⟨0, (List.replicate 200 none)⟩]; let p := (0 : Fin 3).val; let x := (⟨8, none, none, 0, true⟩ : MplSeen); let s : State := st [(R.mplState, 1), ((R.islandState iNW), 2), (R.mplSt, 2), (R.mplAddr, 9), (R.now, 900000000)] [(R.mplMode, 1)]; let use := rx.filter fun x => s.a R.mplPhases = 1 || decide ((x.phase.val : Int) = s.a R.mplPhaseSel); let best := mplBest (use.map fun x => (x.phase.val, mplSee x.bits)); s.a R.mplMode ≠ 0 ∧ s.o R.mplState = 1 ∧ (s.o R.mplSt = 2 ∨ s.o R.mplSt = 5) ∧ s.onBus = true ∧ best = some (p, x) ∧ x.valid = false) ∧
  (let rx : List MplRx := [⟨0, (msbBits 206 98100662887426143479376539379064291570651806656860150611378433).map some⟩]; let p := (0 : Fin 3).val; let x := (⟨0, some 3, some (9, 1, (msbBits 8 1 ++ msbBits 8 2 ++ msbBits 8 3 ++ List.replicate 36 false)), 0, false⟩ : MplSeen); let addr := (9 : Nat); let type := (1 : Nat); let bits := (msbBits 8 1 ++ msbBits 8 2 ++ msbBits 8 3 ++ List.replicate 36 false); let b := (3 : Nat); let s : State := st [(R.mplState, 1), ((R.islandState iNW), 2), (R.mplSt, 2), (R.mplAddr, 9), (R.now, 900000000)] [(R.mplMode, 2)]; let use := rx.filter fun x => s.a R.mplPhases = 1 || decide ((x.phase.val : Int) = s.a R.mplPhaseSel); let best := mplBest (use.map fun x => (x.phase.val, mplSee x.bits)); s.a R.mplMode ≠ 0 ∧ s.o R.mplState = 1 ∧ (s.o R.mplSt = 2 ∨ s.o R.mplSt = 5) ∧ s.onBus = true ∧ best = some (p, x) ∧ x.valid = true ∧ x.msg = some (addr, type, bits) ∧ x.blocks = some b ∧ s.a R.mplMode = 2 ∧ 2 < b) ∧
  (let rx : List MplRx := [⟨0, (msbBits 78 288070360207111766335251).map some⟩]; let p := (0 : Fin 3).val; let x := (⟨0, some 1, some (9, 1, msbBits 8 1), 0, false⟩ : MplSeen); let addr := (9 : Nat); let type := (1 : Nat); let bits := (msbBits 8 1); let b := (1 : Nat); let s : State := st [(R.mplState, 1), ((R.islandState iNW), 2), (R.mplSt, 2), (R.mplAddr, 8), (R.now, 900000000)] [(R.mplMode, 1)]; let use := rx.filter fun x => s.a R.mplPhases = 1 || decide ((x.phase.val : Int) = s.a R.mplPhaseSel); let best := mplBest (use.map fun x => (x.phase.val, mplSee x.bits)); let a := (s.o R.mplAddr).toNat; s.a R.mplMode ≠ 0 ∧ s.o R.mplState = 1 ∧ (s.o R.mplSt = 2 ∨ s.o R.mplSt = 5) ∧ s.onBus = true ∧ best = some (p, x) ∧ x.valid = true ∧ x.msg = some (addr, type, bits) ∧ x.blocks = some b ∧ (type ≠ 1 ∨ addr ≠ a) ∧ (s.a R.mplMode = 2 → b ≤ 2)) ∧
  (let rx : List MplRx := [⟨0, (msbBits 78 288070360207111766335251).map some⟩]; let p := (0 : Fin 3).val; let x := (⟨0, some 1, some (9, 1, msbBits 8 1), 0, false⟩ : MplSeen); let addr := (9 : Nat); let type := (1 : Nat); let bits := (msbBits 8 1); let b := (1 : Nat); let s : State := st [(R.mplState, 1), ((R.islandState iNW), 2), (R.mplSt, 2), (R.mplAddr, 9), (R.now, 900000000)] [(R.mplMode, 1)]; let use := rx.filter fun x => s.a R.mplPhases = 1 || decide ((x.phase.val : Int) = s.a R.mplPhaseSel); let best := mplBest (use.map fun x => (x.phase.val, mplSee x.bits)); let a := (s.o R.mplAddr).toNat; s.a R.mplMode ≠ 0 ∧ s.o R.mplState = 1 ∧ (s.o R.mplSt = 2 ∨ s.o R.mplSt = 5) ∧ s.onBus = true ∧ best = some (p, x) ∧ x.valid = true ∧ x.msg = some (addr, type, bits) ∧ x.blocks = some b ∧ type = 1 ∧ addr = a ∧ (s.a R.mplMode = 2 → b ≤ 2)) ∧
  (let s : State := st [(R.mplState, 1), ((R.islandState iNW), 2), (R.mplSt, 2), (R.mplAddr, 9), (R.now, 900000000), (R.mplLast, 0)] [(R.mplMode, 1)]; s.o R.mplState = 1 ∧ 3 * s.mplTh ≤ s.o R.now - s.o R.mplLast) ∧
  (let s : State := st [(R.mplState, 2), (R.mplRet, 16), ((R.islandState iNW), 2), (R.mplSt, 2), (R.mplAddr, 9), (R.now, 900000000)] [(R.mplMode, 1)]; s.o R.mplState = 2 ∧ 16 ≤ s.o R.mplRet) :=
  ⟨by decide +kernel,
   by decide +kernel,
   by decide +kernel,
   by decide +kernel,
   by decide +kernel,
   by decide +kernel,
   by decide +kernel,
   by decide +kernel,
   by decide +kernel⟩

theorem witness_MplStationHealth :
  (let addr : Nat := 1; let i : Nat := 1; let s : State := st [((R.stFails i), 2)] [((R.stAddr 1), 1), (R.missLimit, 3)]; s.mplSlot addr = some i ∧ s.a R.missLimit ≤ s.o (R.stFails i) + 1) ∧
  (let addr : Nat := 1; let i : Nat := 1; let s : State := st [] [((R.stAddr 1), 1), (R.missLimit, 3)]; s.mplSlot addr = some i ∧ s.o (R.stFails i) + 1 < s.a R.missLimit) ∧
  (let addr : Nat := 1; let i : Nat := 1; let k := R.llMode 1; let s : State := st [] [((R.stAddr 1), 1), (R.missLimit, 3)]; s.mplSlot addr = some i ∧ k ≠ R.stFails i ∧ k ≠ R.mplStState i) ∧
  (let addr : Nat := 1; let i : Nat := 1; let s : State := st [] [(R.mplMode, 1), ((R.stAddr 1), 1), (R.missLimit, 3)]; s.mplSlot addr = some i ∧ s.a R.mplMode = 1) ∧
  (let addr : Nat := 1; let i : Nat := 1; let s : State := st [] [((R.stAddr 1), 1), (R.missLimit, 3), (R.mplMode, 2)]; s.mplSlot addr = some i ∧ s.a R.mplMode ≠ 1) ∧
  (let addr : Nat := 1; let i : Nat := 1; let phase := (1:Nat); let s : State := st [((R.stPhLast i), 1), ((R.stPhCnt i), 2)] [((R.stAddr 1), 1), (R.missLimit, 3)]; s.mplSlot addr = some i ∧ phase < 3 ∧ s.o (R.stPhLast i) = phase ∧ 2 ≤ s.o (R.stPhCnt i)) := by decide +kernel

theorem witness_PairMessagesNeedALane :
  (let l : Lanes := ⟨2, 0⟩; let m : SampleMsg := ⟨0, 5, [1,2,3,4,5,6,7,8,9,10,11,12], true, 1, 0, 0⟩; let f : Nat := 1; let n : Nat := 1; let q : Nat := 1; let src : Src := .firmware; let inp : Input := .gridImport 5; let b : Bool := true; let g : JoinSeg := .values [(0, R.llMode 1, 5)]; let k : Out := 1; let v : Int := 1; let c := .pairYield l; let s : State := st [(R.pairOn, 1), (R.startPhase, 9), ((R.islandState iPK), 2)] []; s.listens ∧ norm R.pairAlarm (s.o R.pairAlarm) = s.o R.pairAlarm ∧ s.laneGood 0 l.a = false ∧ s.laneGood 1 l.b = false ∧ c ∈ pairMessages l m f n q src inp b g k v) :=
  ⟨⟨by decide +kernel, by decide +kernel, by decide +kernel⟩, by decide +kernel, by decide +kernel, by decide +kernel, by decide +kernel⟩

theorem witness_PairMessagesTakeEffect :
  (let l : Lanes := ⟨1, 1⟩; let frame := (0:Nat); let sample := (20:Nat); let inp := (.gridImport 5 : Input); let s : State := st [(R.pairRole, roleStandby), (R.pairOn, 1), (R.startPhase, 9), ((R.islandState iPK), 2)] []; s.pairHears l ∧ s.o R.pairRole = roleStandby ∧ (∀ x ∈ s.d.ownRx, sameSender inp x = false) ∧ 0 < s.stampAhead frame sample) ∧
  (let l : Lanes := ⟨1, 1⟩; let frame : Nat := 5; let sum : Nat := 77; let s : State := st [(R.pairRole, roleStandby), (R.pairOn, 1), (R.startPhase, 9), ((R.islandState iPK), 2), (R.stateSum, 77), (R.frameNo, 5)] []; s.pairHears l ∧ (frame : Int) = s.o R.frameNo ∧ (sum : Int) = s.o R.stateSum ∧ s.o R.pairRole = roleStandby) ∧
  (let l : Lanes := ⟨1, 1⟩; let frame : Nat := 5; let sum : Nat := 77; let s : State := st [(R.pairOn, 1), (R.startPhase, 9), ((R.islandState iPK), 2), (R.stateSum, 77), (R.frameNo, 5), (R.pairRole, 4)] []; s.pairHears l ∧ (frame : Int) = s.o R.frameNo ∧ (sum : Int) = s.o R.stateSum ∧ (s.o R.pairRole = roleSuspect ∨ s.o R.pairRole = roleSolo)) ∧
  (let l : Lanes := ⟨1, 1⟩; let frame : Nat := 5; let sum : Nat := 78; let s : State := st [(R.pairRole, roleStandby), (R.pairOn, 1), (R.startPhase, 9), ((R.islandState iPK), 2), (R.stateSum, 77), (R.frameNo, 5)] []; s.pairHears l ∧ (frame : Int) = s.o R.frameNo ∧ (sum : Int) ≠ s.o R.stateSum ∧ s.o R.pairRole = roleStandby ∧ (s.o R.stocktakeState = 3 → (s.o R.segIsland).toNat < 16)) ∧
  (let l : Lanes := ⟨1, 1⟩; let frame : Nat := 5; let sum : Nat := 78; let s : State := st [(R.pairRole, roleActive), (R.pairOn, 1), (R.startPhase, 9), ((R.islandState iPK), 2), (R.stateSum, 77), (R.frameNo, 5)] []; s.pairHears l ∧ (frame : Int) = s.o R.frameNo ∧ (sum : Int) ≠ s.o R.stateSum ∧ s.o R.pairRole = roleActive) ∧
  (let l : Lanes := ⟨1, 1⟩; let frame : Nat := 5; let sum : Nat := 78; let s : State := st [(R.pairOn, 1), (R.startPhase, 9), ((R.islandState iPK), 2), (R.stateSum, 77), (R.frameNo, 5), (R.pairRole, 4)] []; s.pairHears l ∧ (frame : Int) = s.o R.frameNo ∧ (sum : Int) ≠ s.o R.stateSum ∧ (s.o R.pairRole = roleSuspect ∨ s.o R.pairRole = roleSolo)) ∧
  (let l : Lanes := ⟨1, 1⟩; let s : State := st [(R.pairRole, roleActive), (R.diagRun, 0), (R.pairOn, 1), (R.startPhase, 9), ((R.islandState iPK), 2)] []; s.pairHears l ∧ s.o R.pairRole = roleActive ∧ s.o R.diagRun = 0) ∧
  (let l : Lanes := ⟨1, 1⟩; let s : State := st [(R.diagRun, 1), (R.pairOn, 1), (R.startPhase, 9), ((R.islandState iPK), 2)] []; s.pairHears l ∧ s.o R.diagRun = 1) ∧
  (let l : Lanes := ⟨1, 1⟩; let s : State := st [(R.pairOn, 1), (R.startPhase, 9), ((R.islandState iPK), 2), (R.pairRole, 2)] []; s.pairHears l ∧ s.drives = false) ∧
  (let l : Lanes := ⟨1, 1⟩; let s : State := st [(R.pairOn, 1), (R.startPhase, 9), ((R.islandState iPK), 2), (R.pairRole, 1)] []; s.pairHears l ∧ (s.o R.pairRole = roleActive ∨ s.o R.pairRole = roleSwapping)) :=
  ⟨⟨⟨⟨by decide +kernel, by decide +kernel, by decide +kernel⟩, by decide +kernel⟩, by decide +kernel, by decide +kernel, by decide +kernel⟩,
   ⟨⟨⟨by decide +kernel, by decide +kernel, by decide +kernel⟩, by decide +kernel⟩, by decide +kernel, by decide +kernel, by decide +kernel⟩,
   ⟨⟨⟨by decide +kernel, by decide +kernel, by decide +kernel⟩, by decide +kernel⟩, by decide +kernel, by decide +kernel, by decide +kernel⟩,
   ⟨⟨⟨by decide +kernel, by decide +kernel, by decide +kernel⟩, by decide +kernel⟩, by decide +kernel, by decide +kernel, by decide +kernel, by decide +kernel⟩,
   ⟨⟨⟨by decide +kernel, by decide +kernel, by decide +kernel⟩, by decide +kernel⟩, by decide +kernel, by decide +kernel, by decide +kernel⟩,
   ⟨⟨⟨by decide +kernel, by decide +kernel, by decide +kernel⟩, by decide +kernel⟩, by decide +kernel, by decide +kernel, by decide +kernel⟩,
   ⟨⟨⟨by decide +kernel, by decide +kernel, by decide +kernel⟩, by decide +kernel⟩, by decide +kernel, by decide +kernel⟩,
   ⟨⟨⟨by decide +kernel, by decide +kernel, by decide +kernel⟩, by decide +kernel⟩, by decide +kernel⟩,
   ⟨⟨⟨by decide +kernel, by decide +kernel, by decide +kernel⟩, by decide +kernel⟩, by decide +kernel⟩,
   ⟨⟨⟨by decide +kernel, by decide +kernel, by decide +kernel⟩, by decide +kernel⟩, by decide +kernel⟩⟩

theorem witness_PairSamplesAreCompared :
  (let l : Lanes := ⟨1, 1⟩; let m : SampleMsg := ⟨0, 5, [1,2,3,4,5,6,7,8,9,10,11,12], true, 1, 0, 0⟩; let s : State := st [(R.pairOn, 1), (R.startPhase, 9), ((R.islandState iPK), 2)] []; s.pairHears l ∧ m.hashes.length = 12 ∧ s.o R.pairRole ≠ roleStandby) ∧
  (let l : Lanes := ⟨1, 1⟩; let m : SampleMsg := ⟨0, 5, [1,2,3,4,5,6,7,8,9,10,11,12], true, 1, 0, 0⟩; let s : State := st [(R.pairRole, roleStandby), (R.pairOn, 1), (R.startPhase, 9), ((R.islandState iPK), 2)] []; let own := s.d.hashes.find? fun x => decide (x.1 = m.frame) && decide (x.2.1 = m.sample); s.pairHears l ∧ m.hashes.length = 12 ∧ s.o R.pairRole = roleStandby ∧ own = none) ∧
  (let l : Lanes := ⟨1, 1⟩; let m : SampleMsg := ⟨0, 5, [1,2,3,4,5,6,7,8,9,10,11,12], true, 1, 0, 0⟩; let h := (0, 5, [1,2,3,4,5,6,7,8,9,10,11,12]); let agree := ∀ g, g < 12 → h.2.2.getD g 0 = m.hashes.getD g 0; let s : State := st [(R.pairRole, roleStandby), (R.pairOn, 1), (R.startPhase, 9), ((R.islandState iPK), 2)] [] 0 (fun d => { d with hashes := [h] }); let own := s.d.hashes.find? fun x => decide (x.1 = m.frame) && decide (x.2.1 = m.sample); s.pairHears l ∧ m.hashes.length = 12 ∧ s.o R.pairRole = roleStandby ∧ own = some h ∧ agree) ∧
  (let l : Lanes := ⟨1, 1⟩; let m : SampleMsg := ⟨0, 5, [1,2,3,4,5,6,7,8,9,10,11,12], true, 1, 0, 0⟩; let h := (0, 5, [1,2,3,4,5,6,7,8,9,10,11,13]); let agree := ∀ g, g < 12 → h.2.2.getD g 0 = m.hashes.getD g 0; let s : State := st [(R.pairRole, roleStandby), (R.pairOn, 1), (R.startPhase, 9), ((R.islandState iPK), 2)] [] 0 (fun d => { d with hashes := [h] }); let own := s.d.hashes.find? fun x => decide (x.1 = m.frame) && decide (x.2.1 = m.sample); s.pairHears l ∧ m.hashes.length = 12 ∧ s.o R.pairRole = roleStandby ∧ own = some h ∧ (¬ agree)) :=
  ⟨⟨⟨⟨by decide +kernel, by decide +kernel, by decide +kernel⟩, by decide +kernel⟩, by decide +kernel, by decide +kernel⟩,
   ⟨⟨⟨by decide +kernel, by decide +kernel, by decide +kernel⟩, by decide +kernel⟩, by decide +kernel, by decide +kernel, by decide +kernel⟩,
   ⟨⟨⟨by decide +kernel, by decide +kernel, by decide +kernel⟩, by decide +kernel⟩, by decide +kernel, by decide +kernel, by decide +kernel, by decide +kernel⟩,
   ⟨⟨⟨by decide +kernel, by decide +kernel, by decide +kernel⟩, by decide +kernel⟩, by decide +kernel, by decide +kernel, by decide +kernel, by decide +kernel⟩⟩

theorem witness_PairJoins :
  (let l : Lanes := ⟨1, 1⟩; let s : State := st [(R.pairRole, roleSuspect), (R.joining, 1), (R.pairOn, 1), (R.startPhase, 9), ((R.islandState iPK), 2)] []; s.pairHears l ∧ s.o R.pairRole = roleSuspect ∧ s.o R.joining = 1) ∧
  (let s : State := st [(R.pairOn, 1), (R.joinCnt, 16), (R.pairRole, roleSuspect), (R.joining, 1), (R.startPhase, 9), ((R.islandState iPK), 2)] []; s.o R.pairOn = 1 ∧ 16 ≤ s.o R.joinCnt ∧ s.o R.incompat ≠ 1 ∧ s.o R.pairRole = roleSuspect ∧ s.o R.joining = 1) ∧
  (let s : State := st [(R.pairOn, 1), (R.joinCnt, 16), (R.pairRole, roleSolo), (R.startPhase, 9), ((R.islandState iPK), 2)] []; s.o R.pairOn = 1 ∧ 16 ≤ s.o R.joinCnt ∧ s.o R.incompat ≠ 1 ∧ s.o R.pairRole = roleSolo) ∧
  (let s : State := st [(R.pairOn, 1), (R.startPhase, 9), (R.pairRole, roleSolo), ((R.islandState iPK), 2)] []; let id : PartnerId := ⟨1, 12610, 84017152, 0, (s.lc).toNat, 9, 2, true, false, 7, 3⟩; s.o R.pairOn = 1 ∧ 7 ≤ s.o R.startPhase ∧ s.o R.pairRole = roleSolo ∧ s.fits id = true) ∧
  (let id : PartnerId := ⟨1, 0, 0, 0, 0, 9, 2, true, false, 7, 3⟩; let s : State := st [(R.pairOn, 1), (R.startPhase, 9), (R.pairRole, roleSolo), ((R.islandState iPK), 2)] []; s.o R.pairOn = 1 ∧ 7 ≤ s.o R.startPhase ∧ s.o R.pairRole = roleSolo ∧ s.fits id = false ∧ norm R.pairAlarm (s.o R.pairAlarm) = s.o R.pairAlarm) :=
  ⟨⟨⟨⟨by decide +kernel, by decide +kernel, by decide +kernel⟩, by decide +kernel⟩, by decide +kernel, by decide +kernel⟩,
   by decide +kernel,
   by decide +kernel,
   by decide +kernel,
   by decide +kernel⟩

theorem witness_TakeoverIsClaimed :
  (let s : State := st [(R.pairOn, 1), (R.pairRole, roleStandby), (R.startPhase, 9), ((R.islandState iPK), 2), (R.pairSampleNs, 0), (R.now, 16000)] []; let silent := 0 ≤ s.o R.pairSampleNs ∧ 16000 ≤ s.o R.now - s.o R.pairSampleNs; let unwell := ∃ i, 1 ≤ i ∧ i ≤ 8 ∧ bit (s.o R.health) i = true; s.o R.pairOn = 1 ∧ s.segNamed ∧ silent ∧ s.o R.pairRole = roleStandby ∧ s.o R.diagRun ≠ 2 ∧ (¬ unwell)) ∧
  (let s : State := st [(R.pairOn, 1), (R.pairRole, roleStandby), (R.startPhase, 9), ((R.islandState iPK), 2), (R.pairSampleNs, 0), (R.now, 16000), (R.health, 4)] []; let silent := 0 ≤ s.o R.pairSampleNs ∧ 16000 ≤ s.o R.now - s.o R.pairSampleNs; let unwell := ∃ i, 1 ≤ i ∧ i ≤ 8 ∧ bit (s.o R.health) i = true; s.o R.pairOn = 1 ∧ s.segNamed ∧ silent ∧ s.o R.pairRole = roleStandby ∧ s.o R.diagRun ≠ 2 ∧ unwell) ∧
  (let s : State := st [(R.pairOn, 1), (R.pairRole, roleActive), (R.startPhase, 9), ((R.islandState iPK), 2), (R.pairSampleNs, 0), (R.now, 16000)] []; let silent := 0 ≤ s.o R.pairSampleNs ∧ 16000 ≤ s.o R.now - s.o R.pairSampleNs; s.o R.pairOn = 1 ∧ s.segNamed ∧ silent ∧ s.o R.pairRole = roleActive) ∧
  (let s : State := st [(R.pairOn, 1), (R.pairRole, roleSuspect), (R.startPhase, 9), ((R.islandState iPK), 2), (R.pairSampleNs, 0), (R.now, 16000)] []; let silent := 0 ≤ s.o R.pairSampleNs ∧ 16000 ≤ s.o R.now - s.o R.pairSampleNs; s.o R.pairOn = 1 ∧ s.segNamed ∧ silent ∧ s.o R.pairRole = roleSuspect) ∧
  (let s : State := st [(R.pairOn, 1), (R.pairRole, roleStandby), (R.selHigh, 2), (R.claim, 0), (R.startPhase, 9), ((R.islandState iPK), 2), (R.pairSampleNs, 0), (R.now, 16000)] []; s.o R.pairOn = 1 ∧ s.segNamed ∧ s.o R.pairRole = roleStandby ∧ 2 ≤ s.o R.selHigh ∧ s.o R.claim = 0) ∧
  (let s : State := st [(R.pairOn, 1), (R.diagRun, 2), (R.diagOwn, 0), (R.startPhase, 9), ((R.islandState iPK), 2), (R.pairSampleNs, 0), (R.now, 16000)] []; s.o R.pairOn = 1 ∧ s.segNamed ∧ s.o R.diagRun = 2 ∧ s.o R.diagOwn = 0) ∧
  (let s : State := st [(R.pairOn, 1), (R.diagRun, 1), (R.diagOwn, 0), (R.startPhase, 9), ((R.islandState iPK), 2), (R.pairSampleNs, 0), (R.now, 16000)] []; s.o R.pairOn = 1 ∧ s.segNamed ∧ s.o R.diagRun = 1 ∧ s.o R.diagOwn = 0) :=
  ⟨⟨by decide +kernel, by unfold State.segNamed; decide +kernel, by decide +kernel, by decide +kernel, by decide +kernel, fun ⟨i, _, _, h⟩ => absurd h ((by decide +kernel : ∀ j : Fin 9, ¬ bit (State.o _ R.health) j.val = true) ⟨i, by omega⟩)⟩,
   ⟨by decide +kernel, by unfold State.segNamed; decide +kernel, by decide +kernel, by decide +kernel, by decide +kernel, ⟨2, by decide +kernel⟩⟩,
   ⟨by decide +kernel, by unfold State.segNamed; decide +kernel, by decide +kernel, by decide +kernel⟩,
   ⟨by decide +kernel, by unfold State.segNamed; decide +kernel, by decide +kernel, by decide +kernel⟩,
   ⟨by decide +kernel, by unfold State.segNamed; decide +kernel, by decide +kernel, by decide +kernel, by decide +kernel⟩,
   ⟨by decide +kernel, by unfold State.segNamed; decide +kernel, by decide +kernel, by decide +kernel⟩,
   ⟨by decide +kernel, by unfold State.segNamed; decide +kernel, by decide +kernel, by decide +kernel⟩⟩

theorem witness_TakeoverDrives :
  (let s : State := st [(R.pairOn, 1), (R.pairRole, roleSwapping), (R.claim, 1), (R.takeCause, 2), (R.selFb, 1), (R.startPhase, 9), ((R.islandState iPK), 2)] [] 3; s.Fits ∧ s.o R.pairOn = 1 ∧ s.o R.pairRole = roleSwapping ∧ s.o R.claim = 1 ∧ s.o R.takeCause ≠ 0 ∧ s.o R.selFb = 1 ∧ 1 ≤ s.next.val ∧ s.next.val < 500) ∧
  (let s : State := st [(R.pairOn, 1), (R.pairRole, roleActive), (R.selLow, 2), (R.pClaim, 0), (R.reclaimNs, -1), (R.startPhase, 9), ((R.islandState iPK), 2)] []; s.Fits ∧ s.o R.pairOn = 1 ∧ s.o R.pairRole = roleActive ∧ 2 ≤ s.o R.selLow ∧ s.o R.pClaim = 0 ∧ s.o R.reclaimNs < 0) ∧
  (let s : State := st [(R.pairOn, 1), (R.pairRole, roleActive), (R.selLow, 2), (R.pClaim, 0), (R.reclaimNs, 0), (R.startPhase, 9), ((R.islandState iPK), 2), (R.now, 4000)] []; s.Fits ∧ s.o R.pairOn = 1 ∧ s.o R.pairRole = roleActive ∧ 2 ≤ s.o R.selLow ∧ s.o R.pClaim = 0 ∧ 0 ≤ s.o R.reclaimNs ∧ 4000 ≤ s.o R.now - s.o R.reclaimNs ∧ s.segNamed ∧ (∀ m, m < 48 → s.o (R.modConn m) ≤ 24)) :=
  ⟨⟨⟨by decide +kernel, by decide +kernel, by decide +kernel⟩, by decide +kernel, by decide +kernel, by decide +kernel, by decide +kernel, by decide +kernel, by decide +kernel, by decide +kernel⟩,
   ⟨⟨by decide +kernel, by decide +kernel, by decide +kernel⟩, by decide +kernel, by decide +kernel, by decide +kernel, by decide +kernel, by decide +kernel⟩,
   ⟨⟨by decide +kernel, by decide +kernel, by decide +kernel⟩, by decide +kernel, by decide +kernel, by decide +kernel, by decide +kernel, by decide +kernel, by decide +kernel, by unfold State.segNamed; decide +kernel, by decide +kernel⟩⟩

theorem witness_PlannedSwaps :
  (let s : State := st [(R.pairOn, 1), (R.pairRole, roleActive), (R.swapDay, -1)] [(R.swapDailyS, 0)]; s.segNamed ∧ s.o R.pairOn = 1 ∧ s.o R.pairRole = roleActive ∧ s.a R.swapDailyS ≠ 4294967295 ∧ s.site / 1000000000 % 86400 = s.a R.swapDailyS ∧ s.o R.swapDay ≠ s.site / 86400000000000) ∧
  (let s : State := st [(R.pairOn, 1), (R.pairRole, roleActive), (R.swapWant, 1), (R.partnerRole, 2), (R.pairMisFrame, -1)] [] 0; s.segNamed ∧ s.o R.pairOn = 1 ∧ s.next.val = 0 ∧ s.swapReady = true ∧ s.o R.pairRole = roleActive ∧ s.o R.swapWant = 1) ∧
  (let s : State := st [(R.pairOn, 1), (R.pairRole, roleStandby), (R.pairMisFrame, -1), (R.swapWant, 1)] [] 0; s.segNamed ∧ s.o R.pairOn = 1 ∧ s.next.val = 0 ∧ s.swapReady = true ∧ s.o R.pairRole = roleStandby ∧ (s.o R.swapWant = 1 ∨ s.o R.swapPfb = (s.frame : Int))) ∧
  (let s : State := st [(R.swapWant, 1), (R.now, 2000000000000)] []; s.segNamed ∧ s.o R.swapWant = 1 ∧ 60000000 ≤ s.usSince (s.o R.swapNs)) ∧
  (let s : State := st [(R.pairRole, roleSwapping), (R.swapRun, 2)] [] 30; s.segNamed ∧ s.o R.pairRole = roleSwapping ∧ 10 ≤ s.sample ∧ s.o R.swapRun = 2 ∧ s.o R.selFb ≠ 1) ∧
  (let s : State := st [(R.pairRole, roleSwapping), (R.swapRun, 1), (R.selFb, 1), (R.pClaim, 0)] [] 30; s.segNamed ∧ s.o R.pairRole = roleSwapping ∧ 10 ≤ s.sample ∧ s.o R.swapRun = 1 ∧ s.o R.selFb = 1 ∧ s.o R.pClaim = 0) ∧
  (let s : State := st [] []; let u : State := st [(R.pairRole, roleSwapping), (R.swapRun, 2), (R.selFb, 1)] []; s.segNamed ∧ u.o R.pairRole = roleSwapping ∧ u.o R.swapRun ≠ 0 ∧ u.segNamed ∧ u.o R.swapRun = 2 ∧ u.o R.selFb = 1) ∧
  (let s : State := st [] []; let u : State := st [(R.pairRole, roleSwapping), (R.swapRun, 1), (R.claim, 0)] []; s.segNamed ∧ u.o R.pairRole = roleSwapping ∧ u.o R.swapRun ≠ 0 ∧ u.segNamed ∧ u.o R.swapRun = 1 ∧ u.o R.selFb ≠ 1 ∧ u.o R.claim = 0) ∧
  (let s : State := st [] []; let u : State := st [(R.pairRole, roleSwapping), (R.swapRun, 1), (R.claim, 1)] []; s.segNamed ∧ u.o R.pairRole = roleSwapping ∧ u.o R.swapRun ≠ 0 ∧ u.segNamed ∧ u.o R.selFb ≠ 1 ∧ u.o R.claim ≠ 0) :=
  ⟨⟨by unfold State.segNamed; decide +kernel, by decide +kernel, by decide +kernel, by decide +kernel, by decide +kernel, by decide +kernel⟩,
   ⟨by unfold State.segNamed; decide +kernel, by decide +kernel, by decide +kernel, by decide +kernel, by decide +kernel, by decide +kernel⟩,
   ⟨by unfold State.segNamed; decide +kernel, by decide +kernel, by decide +kernel, by decide +kernel, by decide +kernel, by decide +kernel⟩,
   ⟨by unfold State.segNamed; decide +kernel, by decide +kernel, by decide +kernel⟩,
   ⟨by unfold State.segNamed; decide +kernel, by decide +kernel, by decide +kernel, by decide +kernel, by decide +kernel⟩,
   ⟨by unfold State.segNamed; decide +kernel, by decide +kernel, by decide +kernel, by decide +kernel, by decide +kernel, by decide +kernel⟩,
   ⟨by unfold State.segNamed; decide +kernel, by decide +kernel, by decide +kernel, by unfold State.segNamed; decide +kernel, by decide +kernel, by decide +kernel⟩,
   ⟨by unfold State.segNamed; decide +kernel, by decide +kernel, by decide +kernel, by unfold State.segNamed; decide +kernel, by decide +kernel, by decide +kernel, by decide +kernel⟩,
   ⟨by unfold State.segNamed; decide +kernel, by decide +kernel, by decide +kernel, by unfold State.segNamed; decide +kernel, by decide +kernel, by decide +kernel⟩⟩

theorem witness_SafetyDemandsAreHeld :
  (let k : Out := 1; let s : State := st [((R.sfImdNs k), 0), (R.sfState, 1), (R.now, 2000000000000), ((R.outState k), 4), ((R.imdState k), 4)] [((R.imdMode k), 1)]; s.sfRuns = true ∧ s.insulationLow k = true ∧ 0 ≤ s.o (R.sfImdNs k) ∧ s.a (R.imdFiltUs k) ≤ s.usSince (s.o (R.sfImdNs k))) ∧
  (let k : Out := 1; let s : State := st [((R.hotReq k), 1), (R.sfState, 1), (R.now, 2000000000000)] [((R.hotspotEn k), 1)]; s.sfRuns = true ∧ s.o (R.hotReq k) = 1 ∧ s.a (R.hotspotEn k) = 1) ∧
  (let s : State := st [(R.dieReq, 1), (R.sfState, 1), (R.now, 2000000000000)] []; s.sfRuns = true ∧ s.o R.dieReq = 1) ∧
  (let k : Out := 1; let s : State := st [(R.sfState, 1), (R.now, 2000000000000), ((R.sfOvCnt k), 30000)] []; s.sfRuns = true ∧ 0 < s.o (R.sfOvCnt k) ∧ s.a (R.ovFiltUs k) ≤ 2 * s.o (R.sfOvCnt k)) ∧
  (let p : Fin 4 := 1; let s : State := st [(R.sfState, 1), (R.now, 2000000000000)] []; s.sfRuns = true ∧ (s.o (R.tpNs p) < 0 ∨ s.a R.tpPeriodUs ≤ s.usSince (s.o (R.tpNs p)))) ∧
  (let i : Fin 16 := 2; let s : State := st [(R.sfState, 1), (R.now, 2000000000000), ((R.siDem 2), 1)] [((R.siPair i), 1), ((R.siFunc 2), 1)]; s.sfRuns = true ∧ i.val % 2 = 0 ∧ s.a (R.siPair i) = 1 ∧ s.siFn i ≠ 0 ∧ s.siDemands i ≠ s.siDemands (i.val + 1)) := by decide +kernel

theorem witness_InsulationIsClassified :
  (let k : Out := 1; let s : State := st [] [((R.imdMode k), 1)]; s.injects (72 + k) = false ∧ s.a (R.imdMode k) = 1 ∧ s.os k ≠ osIso) ∧
  (let k : Out := 1; let period := 100000; let high := 50000; let c := imdClass period high; let s : State := st [((R.imdLast k), 3)] [((R.imdMode k), 2)]; s.injects (72 + k) = false ∧ s.a (R.imdMode k) ≠ 0 ∧ s.a (R.imdMode k) ≠ 1 ∧ s.os k ≠ osIso ∧ s.o (R.imdLast k) ≠ c) ∧
  (let k : Out := 1; let period := 50000; let high := 25000; let c := imdClass period high; let s : State := st [((R.imdLast k), 2)] [((R.imdMode k), 2)]; s.injects (72 + k) = false ∧ s.a (R.imdMode k) ≠ 0 ∧ s.a (R.imdMode k) ≠ 1 ∧ s.os k ≠ osIso ∧ s.o (R.imdLast k) = c ∧ c = 2) ∧
  (let k : Out := 1; let period := 100000; let high := 50000; let c := imdClass period high; let s : State := st [((R.imdLast k), 1)] [((R.imdMode k), 2)]; s.injects (72 + k) = false ∧ s.a (R.imdMode k) ≠ 0 ∧ s.a (R.imdMode k) ≠ 1 ∧ s.os k ≠ osIso ∧ s.o (R.imdLast k) = c ∧ c ≠ 2) ∧
  (let k : Out := 1; let s : State := st [] [((R.imdMode k), 2)]; s.injects (72 + k) = false ∧ s.a (R.imdMode k) = 2 ∧ s.os k ≠ osIso) ∧
  (let k : Out := 1; let s : State := st [((R.outState k), osIso)] [((R.imdMode k), 2)]; s.injects (72 + k) = false ∧ s.a (R.imdMode k) = 2 ∧ s.os k = osIso ∧ s.Fits) ∧
  (let k : Out := 1; let s : State := st [((R.outState k), osIso)] [((R.imdMode k), 1)]; s.injects (72 + k) = false ∧ s.a (R.imdMode k) ≠ 0 ∧ s.os k = osIso ∧ s.Fits) :=
  ⟨by decide +kernel,
   by decide +kernel,
   by decide +kernel,
   by decide +kernel,
   by decide +kernel,
   ⟨by decide +kernel, by decide +kernel, by decide +kernel, ⟨by decide +kernel, by decide +kernel, by decide +kernel⟩⟩,
   ⟨by decide +kernel, by decide +kernel, by decide +kernel, ⟨by decide +kernel, by decide +kernel, by decide +kernel⟩⟩⟩

theorem witness_SafetyCycleTrips :
  (let s : State := st [(R.sfState, 1), (R.now, 2000000000000)] []; s.Fits ∧ s.sfRuns = true ∧ (s.o R.sfCycNs < 0 ∨ s.o R.tCycUs ≤ s.usSince (s.o R.sfCycNs)) ∧ s.injects (s.o R.injRunning).toNat = false) :=
  ⟨⟨by decide +kernel, by decide +kernel, by decide +kernel⟩, by decide +kernel, by decide +kernel, by decide +kernel⟩

theorem witness_SafetyFaultsAndReArming :
  (let code := (3:Nat); let s : State := st [(R.sfState, 3), (R.now, 2000000000000)] []; 1 ≤ code ∧ code ≤ 7 ∧ s.o R.sfState = 3) ∧
  (let code := (3:Nat); let s : State := st [(R.sfState, 1), (R.now, 2000000000000)] []; 1 ≤ code ∧ code ≤ 7 ∧ s.o R.sfState ≠ 3 ∧ s.drives = true) ∧
  (let code := (3:Nat); let s : State := st [(R.sfState, 1), (R.now, 2000000000000), (R.pairRole, 2)] []; 1 ≤ code ∧ code ≤ 7 ∧ s.o R.sfState ≠ 3 ∧ s.drives = false ∧ (s.o R.stocktakeState = 3 → (s.o R.segIsland).toNat < 16)) ∧
  (let s : State := st [(R.sfDiffNs, 0), (R.sfState, 1), (R.now, 2000000000000)] []; 0 ≤ s.o R.sfDiffNs ∧ 1000000 ≤ s.usSince (s.o R.sfDiffNs)) ∧
  (let s : State := st [(R.sfState, 1), (R.now, 2000000000000), (R.resetState, 1)] []; s.o R.resetState ≠ 2) ∧
  (let lowUs : Nat := 200000; let highUs : Nat := 2000001; let s : State := st [(R.sfState, 1), (R.now, 2000000000000)] []; s.sfRuns = true ∧ (2000000 < highUs ∨ s.o R.resetState = 2 ∧ lowUs < 100000)) ∧
  (let lowUs : Nat := 99999; let highUs : Nat := 5; let s : State := st [(R.sfState, 1), (R.now, 2000000000000)] []; s.sfRuns = true ∧ highUs ≤ 2000000 ∧ (lowUs < 100000 ∧ s.o R.resetState ≠ 2 ∨ 100000 ≤ lowUs ∧ highUs < 100000)) ∧
  (let lowUs : Nat := 100000; let highUs : Nat := 100000; let s : State := st [(R.sfState, 1), (R.now, 2000000000000)] []; s.sfRuns = true ∧ 100000 ≤ lowUs ∧ 100000 ≤ highUs ∧ highUs ≤ 2000000 ∧ (∀ l ∈ s.d.latches, l.lock = 1 → l.out < 24)) := by decide +kernel

theorem witness_VaultCommandsEnd :
  (let cls := (0:Nat); let s : State := st [(R.vaultRun, 2), (R.vrSlot, 7), (R.vaultPhase, 2)] []; let run := (s.o R.vaultRun).toNat; s.o R.vaultRun ≠ 0 ∧ (s.o R.vaultRun ≠ 5 ∨ 2 ≤ s.o R.vaultPhase) ∧ s.o R.vrSlot < 256 ∧ (run = 2 ∧ cls = 0 ∨ run = 10 ∧ cls = 1)) ∧
  (let s : State := st [(R.vaultRun, 3), (R.vrSlot, 7), (R.vaultPhase, 2), ((R.vsStType 7), 5)] []; let run := (s.o R.vaultRun).toNat; s.o R.vaultRun ≠ 0 ∧ (s.o R.vaultRun ≠ 5 ∨ 2 ≤ s.o R.vaultPhase) ∧ s.o R.vrSlot < 256 ∧ run = 3) ∧
  (let s : State := st [(R.vaultRun, 4), (R.vrSlot, 7), (R.vaultPhase, 2)] []; let run := (s.o R.vaultRun).toNat; s.o R.vaultRun ≠ 0 ∧ (s.o R.vaultRun ≠ 5 ∨ 2 ≤ s.o R.vaultPhase) ∧ s.o R.vrSlot < 256 ∧ run = 4) ∧
  (let s : State := st [(R.vaultRun, 5), (R.vrSlot, 7), (R.vaultPhase, 2)] []; let run := (s.o R.vaultRun).toNat; s.o R.vaultRun ≠ 0 ∧ (s.o R.vaultRun ≠ 5 ∨ 2 ≤ s.o R.vaultPhase) ∧ s.o R.vrSlot < 256 ∧ run = 5) := by decide +kernel

theorem witness_TamperLeavesNoKey :
  (let s : State := st [(R.lcState, 1)] []; s.lc = 1 ∧ s.o R.aoLost ≠ 1) ∧
  (let s : State := st [(R.lcState, 2)] []; s.Fits ∧ 2 ≤ s.lc ∧ s.lc ≤ 4 ∧ s.o R.aoLost ≠ 1) :=
  ⟨by decide +kernel,
   ⟨⟨by decide +kernel, by decide +kernel, by decide +kernel⟩, by decide +kernel, by decide +kernel, by decide +kernel⟩⟩

theorem witness_FoliosSurviveACut :
  (let r : Fin 7 := 1; let f : Nat := 1; let j := (⟨1, 1, false, false, false, [1,2], [], none⟩ : FolioJob); let rest := []; let s : State := st [] [] 0 (fun d => { d with folioJobs := [j] }); s.d.folioJobs = j :: rest ∧ j.region = r ∧ j.folio = f ∧ (∀ x ∈ s.d.folioJobs, x.running = false) ∧ s.folioSupply = true) ∧
  (let r : Fin 7 := 1; let f : Nat := 1; let j := (⟨1, 1, false, false, false, [1,2], [], none⟩ : FolioJob); let rest := []; let s : State := st [(R.supplyLow, 1)] [] 0 (fun d => { d with folioJobs := [j] }); s.d.folioJobs = j :: rest ∧ j.region = r ∧ j.folio = f ∧ (∀ x ∈ s.d.folioJobs, x.running = false) ∧ s.folioSupply = false ∧ f < 256) ∧
  (let r : Fin 7 := 1; let f : Nat := 1; let j := (⟨1, 1, true, true, false, [1,2], [], none⟩ : FolioJob); let s : State := st [] [] 0 (fun d => { d with folioJobs := [j], folios := [⟨1, 1, ⟨1, 1, [], []⟩, ⟨0, 0, [], []⟩⟩] }); s.folioJob r f = some j ∧ j.running = true ∧ s.injectsArg 162 (r * 4096 + f) = false ∧ AwayFromForce (s.folio r f) j.onB ∧ (∀ b isB, (s.folio r f).pick = some (b, isB) → b.seq < 4294967296) ∧ f < 4096) :=
  ⟨by decide +kernel,
   by decide +kernel,
   ⟨by decide +kernel, by decide +kernel, by decide +kernel, fun b isB h => by have e : some ((⟨1, 1, [], []⟩ : Bank), false) = some (b, isB) := h; cases e; decide, fun b isB h => by have e : some ((⟨1, 1, [], []⟩ : Bank), false) = some (b, isB) := h; cases e; decide, by decide +kernel⟩⟩

theorem witness_StocktakeRunsEnd :
  (let i : Isl := 3; let s : State := st [(R.stocktakeState, 2), ((R.islandState i), 4), (R.stMask, 8)] []; s.Fits ∧ (∀ m, m < 48 → s.o (R.modConn m) ≤ 24) ∧ s.o R.stocktakeState = 2 ∧ s.island i = 4 ∧ bit (s.o R.stMask) i = true) :=
  ⟨⟨by decide +kernel, by decide +kernel, by decide +kernel⟩, by decide +kernel, by decide +kernel, by decide +kernel, by decide +kernel⟩

theorem witness_SegmentsRotate :
  (let s : State := st [(R.pairRole, roleStandby), (R.segEndFrame, -1)] [] 0; s.next.val = 0 ∧ s.o R.pairRole = roleStandby ∧ s.stocktaking = false ∧ s.injecting = false ∧ (s.o R.segEndFrame < 0 ∨ s.a R.segSpacingFrames ≤ ((s.frame : Int) - s.o R.segEndFrame) % 4294967296)) ∧
  (let s : State := st [(R.stocktakeState, 3), (R.segIsland, 3)] []; s.o R.stocktakeState = 3 ∧ s.o R.segIsland < 16 ∧ (s.o R.pairRole ≠ roleStandby ∨ s.o R.claim = 1 ∨ 0 ≤ s.o R.pairSampleNs ∧ 16000 ≤ s.o R.now - s.o R.pairSampleNs)) ∧
  (let n := 5; let m := 3; n < 94 ∧ m < n) := by decide +kernel

theorem witness_InjectionsEnd :
  (let s : State := st [(R.injRunning, 5), (R.now, 2000000000000)] []; let d := (s.o R.injRunning).toNat; s.o R.injRunning < 179 ∧ norm (R.injResponseUs d) (s.o (R.injResponseUs d)) = s.o (R.injResponseUs d) ∧ s.o (R.injHoldUs d) ≤ s.usSince (s.o R.injNs)) ∧
  (let s : State := st [(R.permitEnd, 0), (R.injRunning, 5), (R.now, 2000000000000)] []; let d := (s.o R.injRunning).toNat; s.o R.injRunning < 179 ∧ norm (R.injResponseUs d) (s.o (R.injResponseUs d)) = s.o (R.injResponseUs d) ∧ 0 ≤ s.o R.permitEnd ∧ s.o R.permitEnd ≤ s.o R.now) ∧
  (let s : State := st [(R.injRunning, 255), (R.permitEnd, 0)] []; s.o R.injRunning = 255 ∧ 0 ≤ s.o R.permitEnd ∧ s.o R.permitEnd ≤ s.o R.now) := by decide +kernel

theorem witness_ScrubsAndRecords :
  (let q := (2:Nat); let pos := (1:Nat); let s : State := { st [(R.pairRole, 0), (R.scrubFrame, -1)] [] with queues := setAt State.reset.queues 2 ⟨[5,6,7], false, false, 0, 0⟩ }; (s.o R.scrubFrame < 0 ∨ 1000 ≤ ((s.frame : Int) - s.o R.scrubFrame) % 4294967296) ∧ s.injects 161 = false ∧ q < 64 ∧ pos < (s.queue q).words.length ∧ s.queues.length = 64 ∧ s.o R.pairRole = 0 ∧ s.d.raised = []) ∧
  (let s : State := { st [(R.scrubFrame, -1), (R.frameNo, 4000)] [((R.tlmObj 2), 0x202001)] 0 with queues := setAt State.reset.queues 2 ⟨[5,6,7], false, false, 0, 0⟩ }; let objs := ((upTo 8).map fun j => s.a (R.tlmObj j)).filter (· != 0); s.next.val = 0 ∧ (s.frame : Int) % (pos (s.a R.tlmPeriod)) = 0 ∧ s.o R.tlmFrame ≠ (s.frame : Int) ∧ objs ≠ []) := by decide +kernel

theorem witness_FullResets :
  (let c : Fin 5 := 1; let s : State := st [] []; s.Fits ∧ s.queues.length = 64 ∧ (c.val = 4 → s.next.val = 0 ∧ s.o R.resetNow = 0x504F) ∧ (c.val = 0 → s.o R.startPhase = 1)) ∧
  (let s : State := st [(R.startPhase, 3)] []; s.Fits ∧ s.queues.length = 64 ∧ s.o R.startPhase ≠ 0) ∧
  (let s : State := st [(R.startPhase, 1)] []; s.Fits ∧ s.queues.length = 64 ∧ s.o R.startPhase = 1 ∧ s.o R.aoLost ≠ 1) ∧
  (let s : State := st [(R.mtState, 2)] []; s.Fits ∧ s.queues.length = 64 ∧ s.o R.mtState ≠ 1) :=
  ⟨⟨⟨by decide +kernel, by decide +kernel, by decide +kernel⟩, by decide +kernel, by decide +kernel, by decide +kernel⟩,
   ⟨⟨by decide +kernel, by decide +kernel, by decide +kernel⟩, by decide +kernel, by decide +kernel⟩,
   ⟨⟨by decide +kernel, by decide +kernel, by decide +kernel⟩, by decide +kernel, by decide +kernel, by decide +kernel⟩,
   ⟨⟨by decide +kernel, by decide +kernel, by decide +kernel⟩, by decide +kernel, by decide +kernel⟩⟩

theorem witness_IslandRestarts :
  (let req : Bool := false; let s : State := st [(R.startPhase, 9)] []; 7 ≤ s.o R.startPhase ∧ (req = true → s.next.val = 0 ∧ s.o R.resetNow = 0x4150) ∧ (req = false → s.o R.apDown ≠ 1)) ∧
  (let req : Bool := false; let s : State := st [(R.startPhase, 9), ((R.islandState iCA), 5)] []; 7 ≤ s.o R.startPhase ∧ (req = true → s.next.val = 0 ∧ s.o R.resetNow = 0x4341) ∧ (req = false → s.island iCA = 5 ∧ bit (s.o R.stFailMask) iCA = false) ∧ s.Fits ∧ s.segNamed ∧ (∀ m, m < 48 → s.o (R.modConn m) ≤ 24)) ∧
  (let d : Fin 13 := 8; let i : Nat := 6; let s : State := st [(R.startPhase, 9), (R.domainState, 65535), ((R.islandState i), 1)] []; 7 ≤ s.o R.startPhase ∧ bit (s.o R.domainState) d = true ∧ d.val ≠ 5 ∧ domIsland d = some i ∧ s.island i = 1 ∧ i ≠ iCA ∧ i ≠ iAP ∧ s.o R.apDown ≠ 1 ∧ s.o R.caReset ≠ 1) ∧
  (let d : Fin 13 := 8; let i : Nat := 6; let s : State := st [(R.startPhase, 9), (R.domainState, 65535), ((R.islandState i), 1), (R.apDown, 1)] []; 7 ≤ s.o R.startPhase ∧ bit (s.o R.domainState) d = true ∧ d.val ≠ 5 ∧ domIsland d = some i ∧ s.island i = 1 ∧ i ≠ iCA ∧ i ≠ iAP ∧ (s.o R.apDown = 1 ∨ s.o R.caReset = 1)) ∧
  (let d : Fin 13 := 1; let i : Nat := 0; let s : State := st [(R.startPhase, 9), (R.domainState, 65535), ((R.islandState i), 1)] []; 7 ≤ s.o R.startPhase ∧ bit (s.o R.domainState) d = true ∧ d.val ≠ 5 ∧ domIsland d = some i ∧ s.island i = 1 ∧ i = iAP) ∧
  (let d : Fin 13 := 3; let i : Nat := 1; let s : State := st [(R.startPhase, 9), (R.domainState, 65535), ((R.islandState i), 1)] []; 7 ≤ s.o R.startPhase ∧ bit (s.o R.domainState) d = true ∧ d.val ≠ 5 ∧ domIsland d = some i ∧ s.island i = 1 ∧ i = iCA) :=
  ⟨by decide +kernel,
   ⟨by decide +kernel, by decide +kernel, by decide +kernel, ⟨by decide +kernel, by decide +kernel, by decide +kernel⟩, by unfold State.segNamed; decide +kernel, by decide +kernel⟩,
   by decide +kernel,
   by decide +kernel,
   by decide +kernel,
   by decide +kernel⟩

theorem witness_StartsUp :
  (let s : State := st [(R.startPhase, 1)] []; s.o R.startPhase = 1) ∧
  (let env := (⟨[], none, false, true, [], none, 0, 0, [], [], 0, []⟩ : StartEnv); let s : State := st [(R.startPhase, 6)] [] 0 (fun d => { d with startEnv := some env }); s.o R.startPhase = 6 ∧ s.d.startEnv = some env) := by decide +kernel

theorem witness_ReconcilesContactors :
  (let m : Pm := 1; let s : State := st [((R.reconSel m), 1), ((R.lowNs m), 0), ((R.expCmd (selExp m)), 65535), (R.now, 2000000000000)] []; s.Fits ∧ s.o (R.reconSel m) = 1 ∧ 0 ≤ s.o (R.lowNs m) ∧ 10000 ≤ s.usSince (s.o (R.lowNs m)) ∧ 0 ≤ s.o (R.expCmd (selExp m)) ∧ s.o (R.expCmd (selExp m)) ≤ 65535) ∧
  (let k : Out := 1; let s : State := st [((R.outFound k), 1), ((R.expCmd (outExp k)), 65535), (R.now, 2000000000000), ((R.outLowNs k), 0)] []; s.Fits ∧ s.o (R.outFound k) = 1 ∧ s.quiet10 k = true ∧ 0 ≤ s.o (R.expCmd (outExp k)) ∧ s.o (R.expCmd (outExp k)) ≤ 65535) ∧
  (let m : Pm := 1; let s : State := st [(R.now, 2000000000000), ((R.reconSel m), 1), ((R.highNs m), 0)] []; s.Fits ∧ (s.o (R.reconSel m) = 1 ∧ 0 ≤ s.o (R.highNs m) ∧ 100000 ≤ s.usSince (s.o (R.highNs m)) ∨ s.o (R.reconSel m) = 2 ∧ s.selectorsOpen2 m = false ∧ 20000 ≤ s.usSince (s.o (R.unkNs m))) ∧ (∀ j, j < 48 → s.o (R.modConn j) ≤ 24)) ∧
  (let k : Out := 1; let s : State := st [(R.now, 2000000000000), ((R.outFound k), 1), ((R.outHighNs k), 0)] []; s.Fits ∧ (s.o (R.outFound k) = 1 ∧ 0 ≤ s.o (R.outHighNs k) ∧ 100000 ≤ s.usSince (s.o (R.outHighNs k)) ∨ s.o (R.outFound k) = 2 ∧ s.contactorsOpen2 k = false ∧ 20000 ≤ s.usSince (s.o (R.outFoundNs k)))) :=
  ⟨⟨⟨by decide +kernel, by decide +kernel, by decide +kernel⟩, by decide +kernel, by decide +kernel, by decide +kernel, by decide +kernel, by decide +kernel⟩,
   ⟨⟨by decide +kernel, by decide +kernel, by decide +kernel⟩, by decide +kernel, by decide +kernel, by decide +kernel, by decide +kernel⟩,
   ⟨⟨by decide +kernel, by decide +kernel, by decide +kernel⟩, by decide +kernel, by decide +kernel⟩,
   ⟨⟨by decide +kernel, by decide +kernel, by decide +kernel⟩, by decide +kernel⟩⟩

theorem witness_ClassAQueuesDropWhole :
  (let q : Fin 64 := 1; let item : List Nat := [1, 2]; let s : State := st [] []; let old := s.queue q; s.queues.length = 64 ∧ s.a (R.qClass q) ≠ 1 ∧ old.words.length + item.length ≤ 1024) ∧
  (let q : Fin 64 := 1; let item : List Nat := List.replicate 1025 7; let s : State := st [] []; let old := s.queue q; s.queues.length = 64 ∧ s.a (R.qClass q) ≠ 1 ∧ 1024 < old.words.length + item.length) ∧
  (let q : Fin 64 := 1; let p := 5; let s : State := st [] []; s.queues.length = 64 ∧ s.a (R.qClass q) ≠ 1 ∧ p < 64 ∧ p ≠ q.val) ∧
  (let q : Fin 64 := 1; let a : Action := Action.put (R.llMode 1) 5; let s : State := { st [] [] with queues := setAt State.reset.queues 1 ⟨[5], true, false, 0, 0⟩ }; let old := s.queue q; s.queues.length = 64 ∧ s.a (R.qClass q) ≠ 1 ∧ a ≠ .clearFlags q ∧ a ≠ .empty q ∧ (∀ x, a ≠ .load q x) ∧ old.overrun = true) :=
  ⟨by decide +kernel,
   by decide +kernel,
   by decide +kernel,
   ⟨by decide +kernel, by decide +kernel, nofun, nofun, nofun, by decide +kernel⟩⟩

theorem witness_ClassBQueuesKeepAMarker :
  (let q : Fin 64 := 1; let item : List Nat := [1, 2]; let s : State := st [] [((R.qClass q), 1)]; let old := s.queue q; let n := old.words.length; s.queues.length = 64 ∧ s.a (R.qClass q) = 1 ∧ (s.queue q).words.length ≤ 1024 ∧ old.gapCount = 0 ∧ n + item.length + 1 ≤ 1024) ∧
  (let q : Fin 64 := 1; let item : List Nat := [1, 2]; let l := (List.replicate 1022 5); let w := (Queue.gapWord 3 4); let s : State := { st [] [((R.qClass q), 1)] with queues := setAt State.reset.queues 1 ⟨l ++ [w], false, false, 0, 9⟩ }; let old := s.queue q; let n := old.words.length; s.queues.length = 64 ∧ s.a (R.qClass q) = 1 ∧ (s.queue q).words.length ≤ 1024 ∧ old.gapCount = 0 ∧ 1024 < n + item.length + 1 ∧ old.words = l ++ [w] ∧ Queue.isGap w = true) ∧
  (let q : Fin 64 := 1; let item : List Nat := [1, 2]; let s : State := { st [] [((R.qClass q), 1)] with queues := setAt State.reset.queues 1 ⟨List.replicate 1023 5, false, false, 0, 9⟩ }; let old := s.queue q; let n := old.words.length; s.queues.length = 64 ∧ s.a (R.qClass q) = 1 ∧ (s.queue q).words.length ≤ 1024 ∧ old.gapCount = 0 ∧ 1024 < n + item.length + 1 ∧ n < 1024 ∧ (∀ l w, old.words = l ++ [w] → Queue.isGap w = false)) ∧
  (let q : Fin 64 := 1; let item : List Nat := [1, 2]; let s : State := { st [] [((R.qClass q), 1)] with queues := setAt State.reset.queues 1 ⟨List.replicate 1024 5, false, false, 0, 9⟩ }; let old := s.queue q; let n := old.words.length; s.queues.length = 64 ∧ s.a (R.qClass q) = 1 ∧ (s.queue q).words.length ≤ 1024 ∧ old.gapCount = 0 ∧ 1024 < n + item.length + 1 ∧ n = 1024 ∧ (∀ l w, old.words = l ++ [w] → Queue.isGap w = false)) ∧
  (let q : Fin 64 := 1; let s : State := { st [] [((R.qClass q), 1)] with queues := setAt State.reset.queues 1 ⟨List.replicate 1024 5, false, false, 3, 9⟩ }; let old := s.queue q; let n := old.words.length; s.queues.length = 64 ∧ s.a (R.qClass q) = 1 ∧ (s.queue q).words.length ≤ 1024 ∧ 0 < old.gapCount ∧ n = 1024) ∧
  (let q : Fin 64 := 1; let m : Nat := 2; let s : State := { st [] [((R.qClass q), 1)] with queues := setAt State.reset.queues 1 ⟨List.replicate 1024 5, false, false, 3, 9⟩ }; let old := s.queue q; let n := old.words.length; s.queues.length = 64 ∧ s.a (R.qClass q) = 1 ∧ (s.queue q).words.length ≤ 1024 ∧ 0 < old.gapCount ∧ n - m < 1024) ∧
  (let q : Fin 64 := 1; let p := 5; let s : State := st [] [((R.qClass q), 1)]; s.queues.length = 64 ∧ s.a (R.qClass q) = 1 ∧ (s.queue q).words.length ≤ 1024 ∧ p < 64 ∧ p ≠ q.val) :=
  ⟨by decide +kernel,
   by decide +kernel,
   ⟨by decide +kernel, by decide +kernel, by decide +kernel, by decide +kernel, by decide +kernel, by decide +kernel, fun l w h => by have hm : w ∈ List.replicate _ 5 := by { rw [show List.replicate _ 5 = l ++ [w] from h]; simp }; rw [List.eq_of_mem_replicate hm]; decide⟩,
   ⟨by decide +kernel, by decide +kernel, by decide +kernel, by decide +kernel, by decide +kernel, by decide +kernel, fun l w h => by have hm : w ∈ List.replicate _ 5 := by { rw [show List.replicate _ 5 = l ++ [w] from h]; simp }; rw [List.eq_of_mem_replicate hm]; decide⟩,
   by decide +kernel,
   by decide +kernel,
   by decide +kernel⟩

theorem witness_WeightsSumToOne :
  (let frame : Nat := 5; let l : List (Nat × Int) := [(1, 100), (3, 200), (7, 55)]; let w := weightsOf frame l; let x := (7, 55); let x' := (1, 100); let y := ((w.find? fun z => z.1 = 7).getD (0,0)); let y' := ((w.find? fun z => z.1 = 1).getD (0,0)); (l.map Prod.fst).Nodup ∧ (∀ x ∈ l, x.1 < 48 ∧ 0 ≤ x.2) ∧ 0 < sumOver l (·.2) ∧ x.1 = y.1 ∧ x'.1 = y'.1 ∧ modKey frame x.1 < modKey frame x'.1 ∧ y'.2 = x'.2 * 32768 / sumOver l (·.2) + 1 ∧ x ∈ l ∧ x' ∈ l ∧ y ∈ w ∧ y' ∈ w) ∧
  (let frame : Nat := 5; let l : List (Nat × Int) := [(1,0),(3,0)]; let w := weightsOf frame l; let y := (w.getD 0 (0,0)); (l.map Prod.fst).Nodup ∧ (∀ x ∈ l, x.1 < 48 ∧ 0 ≤ x.2) ∧ sumOver l (·.2) = 0 ∧ y ∈ w) := by decide +kernel

theorem witness_SharesSumToTheWhole :
  (let total : Int := 1000; let cap : List Int := [100, 0, 300, 7]; let i : Nat := 1; let c : Int := 0; let x : Int := ((batSplit total cap)[1]?.getD 0); 0 ≤ total ∧ (∀ c ∈ cap, 0 ≤ c) ∧ 0 < sumOver cap id ∧ cap[i]? = some c ∧ (batSplit total cap)[i]? = some x ∧ c = 0) ∧
  (let total : Int := 1000; let cap : List Int := [100, 0, 300, 7]; let i : Nat := 2; let c : Int := 300; let x : Int := ((batSplit total cap)[2]?.getD 0); 0 ≤ total ∧ (∀ c ∈ cap, 0 ≤ c) ∧ 0 < sumOver cap id ∧ cap[i]? = some c ∧ (batSplit total cap)[i]? = some x ∧ c ≠ 0 ∧ (∃ (j : Nat) (c' : Int), j < i ∧ cap[j]? = some c' ∧ c' ≠ 0)) ∧
  (let legs : List Nat := [4, 5, 6]; let im : Int := 1001; let i : Nat := 1; let j : Nat := 2; let x : Nat × Int := ((legSplit legs im)[1]?.getD (0,0)); let y : Nat × Int := ((legSplit legs im)[2]?.getD (0,0)); legs ≠ [] ∧ i ≤ j ∧ (legSplit legs im)[i]? = some x ∧ (legSplit legs im)[j]? = some y) :=
  ⟨by decide +kernel,
   ⟨by decide +kernel, by decide +kernel, by decide +kernel, by decide +kernel, by decide +kernel, by decide +kernel, ⟨0, 100, by decide +kernel⟩⟩,
   by decide +kernel⟩

theorem witness_LawsKeepTheirLimits :
  (let lo : Int := -1000; let hi : Int := 1000; let awLo : Int := -500; let awHi : Int := 500; lo ≤ hi ∧ awLo ≤ awHi) ∧
  (let vs : Int := 1; let as : Int := 1; let js : Int := 1; 0 ≤ vs ∧ 0 ≤ as ∧ 0 < js) ∧
  (let p : Int := 1000; let duty : Int := 0; let dead : Int := 10; let least : Int := 20; 0 ≤ dead ∧ 0 ≤ least ∧ 0 < p ∧ dead + least ≤ p ∧ duty ≤ 0) ∧
  (let p : Int := 1000; let duty : Int := 268435456; let dead : Int := 10; let least : Int := 20; 0 ≤ dead ∧ 0 ≤ least ∧ 0 < p ∧ dead + least ≤ p ∧ 268435456 ≤ duty) := by decide +kernel

theorem witness_FillSharesTheBudget :
  (let c : List ShOut := [⟨1,0,3,400000,5,500,2,false⟩, ⟨2,0,1,400000,5,90,2,false⟩, ⟨5,0,2,400000,5,700,2,false⟩]; let r : Int := 900; let order := sortBy (fun o => o.dem * 32 + o.key) c; let f := shFill c r; let i : Nat := 1; let j : Nat := 2; let o : ShOut := (order.getD 1 ⟨1,0,3,400000,5,500,2,false⟩); let x : Nat × Int := (f.getD 1 (0,0)); let y : Nat × Int := (f.getD 2 (0,0)); 0 ≤ r ∧ (∀ o ∈ c, o.key < 32 ∧ 0 ≤ o.dem) ∧ order[i]? = some o ∧ f[i]? = some x ∧ f[j]? = some y ∧ x.2 < o.dem) := by decide +kernel

theorem witness_CommitsAreWhole :
  (let g : Nat := 241; let snap : Store := []; let extra : State → Fails := fun _ => none; let k := R.pauseLimitUs 1; let u : State := st [] []; u.Fits ∧ g < 268 ∧ snap.Good ∧ u.rules g snap = none ∧ extra u = none ∧ grpOf k = some g ∧ shadowed k = true) ∧
  (let g : Nat := 241; let snap : Store := []; let extra : State → Fails := fun _ => none; let k := R.llMode 1; let u : State := st [] []; u.Fits ∧ g < 268 ∧ snap.Good ∧ u.rules g snap = none ∧ extra u = none ∧ (¬ (grpOf k = some g ∧ shadowed k = true))) ∧
  (let g : Nat := 241; let snap : Store := []; let extra : State → Fails := (fun _ => some (0x30, 7)); let rule := 0x30; let k := 7; let u : State := st [] []; u.Fits ∧ g < 268 ∧ snap.Good ∧ ((match u.rules g snap with | some x => some x | none => extra u) = some (rule, k))) :=
  ⟨⟨⟨by decide +kernel, by decide +kernel, by decide +kernel⟩, by decide +kernel, ⟨by decide +kernel, by decide +kernel⟩, by decide +kernel, by decide +kernel, by decide +kernel, by decide +kernel⟩,
   ⟨⟨by decide +kernel, by decide +kernel, by decide +kernel⟩, by decide +kernel, ⟨by decide +kernel, by decide +kernel⟩, by decide +kernel, by decide +kernel, by decide +kernel⟩,
   ⟨⟨by decide +kernel, by decide +kernel, by decide +kernel⟩, by decide +kernel, ⟨by decide +kernel, by decide +kernel⟩, by decide +kernel⟩⟩

end Sys2Proof.Tests
end

/-!
PROOFS of the statements about every command and every step (spec/00_scope.md). The invariant of a step is cut in two: what
every single action keeps (stores and queues), which every script then keeps; and that nothing raised is left behind, which
the hand-over at the end of every command sees to.
-/

namespace Sys2Proof.Machine

/-! ## Stores and queues -/

theorem Store.Good.set {st : Store} (h : st.Good) (k : Key) (v : Int) : Store.Good (st.set dflt k (norm k v)) := by
  refine ⟨Store.wf_set h.1, fun e he => ?_⟩
  rcases Store.mem_set he with rfl | he
  · exact norm_idem k v
  · exact h.2 e he

theorem Store.Good.filter {st : Store} (h : st.Good) (p : Key × Int → Bool) : Store.Good (st.filter p) :=
  ⟨Store.wf_filter p h.1, fun e he => h.2 e (List.mem_filter.mp he).1⟩

/-- An item, or the gap marker in its place, never takes a queue past its 1,024 words (R371, R373, R374). -/
theorem Queue.length_add_le (classB : Bool) (frame : Nat) (item : List Nat) (q : Queue) (h : q.words.length ≤ 1024) :
    (q.add classB frame item).1.words.length ≤ 1024 := by
  unfold Queue.add
  dsimp only
  split
  · -- Class A: the item is written where it fits, else dropped.
    split
    · rename_i hroom
      simpa only [List.length_append] using hroom
    · exact h
  · -- Class B, in the order of the definition: the item fits; a waiting marker is written; the newest word decides.
    split
    · rename_i hroom
      simp only [List.length_append]
      omega
    · split
      · rename_i hwaits
        simp only [List.length_append, List.length_singleton]
        omega
      · split
        · rename_i w hw
          have hne : q.words ≠ [] := by rintro he; simp [he] at hw
          have hpos := List.length_pos_iff.mpr hne
          split
          · -- The newest word is a marker and takes the item's place.
            simp only [List.length_append, List.length_dropLast, List.length_singleton]
            omega
          · split
            · simp only [List.length_append, List.length_singleton]
              omega
            · exact h
        · simp

/-- Consuming writes a waiting gap marker only where it left a word free (R374). -/
theorem Queue.length_consume_le (n : Nat) (q : Queue) (h : q.words.length ≤ 1024) :
    (q.consume n).words.length ≤ 1024 := by
  unfold Queue.consume
  dsimp only
  split
  · rename_i hfree
    simp only [List.length_append, List.length_singleton]
    omega
  · simp only [List.length_drop]
    omega

/-! ## The part of the invariant that every action keeps -/

/-- The invariant but for the raised items, which a command has until it hands them over. -/
structure State.WellStored (s : State) : Prop where
  objs : s.objs.Good
  active : s.active.Good
  shadow : s.shadow.Good
  queues : s.queues.length = 64
  words : ∀ q ∈ s.queues, q.words.length ≤ 1024

theorem State.inv_iff {s : State} : s.Inv ↔ s.WellStored ∧ s.d.raised = [] :=
  ⟨fun ⟨ho, ha, hs, hq, hw, hr⟩ => ⟨⟨ho, ha, hs, hq, hw⟩, hr⟩, fun ⟨⟨ho, ha, hs, hq, hw⟩, hr⟩ => ⟨ho, ha, hs, hq, hw, hr⟩⟩

section
variable {s : State} (h : s.WellStored)
include h

theorem State.WellStored.length_queue_le (q : Nat) : (s.queue q).words.length ≤ 1024 := by
  unfold State.queue
  rw [List.getD_eq_getElem?_getD]
  cases hq : s.queues[q]? with
  | none => exact Nat.zero_le _
  | some x => exact h.words x (List.mem_of_getElem? hq)

theorem State.WellStored.setQueue (q : Nat) {x : Queue} (hx : x.words.length ≤ 1024) :
    State.WellStored { s with queues := setAt s.queues q x } := by
  refine ⟨h.objs, h.active, h.shadow, (length_setAt _ _ _).trans h.queues, fun y hy => ?_⟩
  rcases mem_setAt hy with rfl | hy
  · exact hx
  · exact h.words y hy

/-- It speaks of the stores and the queues alone. -/
theorem State.WellStored.rest (p : List Instr) (n : Fin 501) (d : Data) :
    State.WellStored { s with pending := p, next := n, d := d } :=
  ⟨h.objs, h.active, h.shadow, h.queues, h.words⟩

theorem apply_wellStored (a : Action) : (a.apply s).WellStored := by
  have hq := h.length_queue_le
  cases a with
  | put k v =>
    unfold Action.apply
    dsimp only
    split
    · exact h
    · exact ⟨h.objs.set k v, h.active, h.shadow, h.queues, h.words⟩
  | putA k v => exact ⟨h.objs, h.active.set k v, h.shadow, h.queues, h.words⟩
  | putS k v => exact ⟨h.objs, h.active, h.shadow.set k v, h.queues, h.words⟩
  | forget p => exact ⟨h.objs.filter _, h.active, h.shadow, h.queues, h.words⟩
  | forgetA p => exact ⟨h.objs, h.active.filter _, h.shadow, h.queues, h.words⟩
  | forgetS p => exact ⟨h.objs, h.active, h.shadow.filter _, h.queues, h.words⟩
  | item q ws => exact h.setQueue q (Queue.length_add_le _ _ _ _ (hq q))
  | consume q n => exact h.setQueue q (Queue.length_consume_le n _ (hq q))
  | empty q => exact h.setQueue q (Nat.zero_le _)
  | load q x => exact h.setQueue q (List.length_take_le _ _)
  | clearFlags q => exact h.setQueue q (hq q)
  | poison q pos => exact h.setQueue q (Nat.le_trans (Nat.le_of_eq (length_setAt _ _ _)) (hq q))
  | data f => exact h.rest _ _ _

theorem run_wellStored (sc : Script) : (sc.run s).WellStored :=
  sc.run_keeps State.WellStored (fun a _ ht => apply_wellStored ht a) s h

end

/-! ## The end of a command -/

theorem flush_raised (s : State) : (flush.run s).d.raised = [] := by
  obtain ⟨-, -, -, -, hd, -⟩ := flush_effect s
  rw [hd]

/-- Whatever the script, a command hands over a state that meets the invariant (R371, R372). -/
theorem does_inv {s : State} (h : s.WellStored) (sc : Script) : ∃ t, does sc s = .next t ∧ t.Inv := by
  have hfresh : s.fresh.WellStored := h.rest _ _ _
  have hdone : (flush.run (sc.run s.fresh)).WellStored := run_wellStored (run_wellStored hfresh sc) flush
  exact ⟨_, does_eq sc s, State.inv_iff.mpr ⟨hdone, flush_raised _⟩⟩

theorem exec_inv {s : State} (h : s.WellStored) (c : Instr) : ∃ t, exec c s = .next t ∧ t.Inv := by
  obtain ⟨sc, n, he⟩ := exec_shape c s
  rw [he]
  exact does_inv (h.rest s.pending n s.d) sc

theorem step_of_nil {s : State} (h : s.pending = []) : step s = .next s := by
  simp only [step, h]

theorem step_of_cons {s : State} {c : Instr} {rest : List Instr} (h : s.pending = c :: rest) :
    step s = exec c { s with pending := rest } := by
  simp only [step, h]

/-- Settles O3: by the shape that every command's meaning has, and the invariant that every action keeps. -/
theorem stepKeepsInvariant : Obligations.StepKeepsInvariant := by
  intro s h
  cases hp : s.pending with
  | nil => exact ⟨s, step_of_nil hp, h⟩
  | cons c rest =>
    rw [step_of_cons hp]
    exact exec_inv ((State.inv_iff.mp h).1.rest rest s.next s.d) c

/-! ## What the command before it sent -/

/-- The state with other messages in place of those that the command before it sent. -/
def State.withSent (s : State) (l : List Sent) : State := { s with d := { s.d with sent := l } }

theorem does_withSent (sc : Script) (s : State) (l : List Sent) : does sc (s.withSent l) = does sc s := rfl

theorem movesIf_withSent {c : State → Bool} {n : State → Fin 501} {sc : Script} {s : State} {l : List Sent}
    (hc : c (s.withSent l) = c s) (hn : n (s.withSent l) = n s) :
    movesIf c n sc (s.withSent l) = movesIf c n sc s := by
  unfold movesIf
  rw [hc, hn]
  split <;> rfl

/-- A command that does not move the sample counter is one script, the same from every state; `exec_runs` lets the script
depend on the state, and so on what was sent before. -/
theorem exec_script (i : Instr) (h : movesCounter i = false) : ∃ sc, ∀ s, exec i s = does sc s := by
  cases i
  case controlSample => cases h
  case powerFrameBoundary => cases h
  case startUp => cases h
  case reconcileOpen f => cases f <;> exact ⟨_, fun _ => rfl⟩
  case reconcileStuck f => cases f <;> exact ⟨_, fun _ => rfl⟩
  case safetyDemand f => cases f <;> exact ⟨_, fun _ => rfl⟩
  all_goals exact ⟨_, fun _ => rfl⟩

theorem exec_withSent (c : Instr) (s : State) (l : List Sent) : exec c (s.withSent l) = exec c s := by
  cases hm : movesCounter c with
  | false =>
    obtain ⟨sc, he⟩ := exec_script c hm
    rw [he, he, does_withSent]
  | true =>
    cases c <;> simp [movesCounter] at hm
    case controlSample sd selFb partnerClaim =>
      show execControlSample sd selFb partnerClaim _ = execControlSample sd selFb partnerClaim s
      exact movesIf_withSent rfl rfl
    case powerFrameBoundary =>
      show execPowerFrameBoundary _ = execPowerFrameBoundary s
      exact movesIf_withSent rfl rfl
    case startUp env =>
      show execStartUp env _ = execStartUp env s
      exact movesIf_withSent rfl rfl

/-- Settles O4: a command's script and the hand-over after it keep the waiting commands and the constants, and the
messages sent before are dropped before the script runs. -/
theorem everyCommandAnswers : Obligations.EveryCommandAnswers := by
  intro c s
  obtain ⟨sc, n, he⟩ := exec_shape c s
  have ht := he.trans (does_eq sc _)
  refine ⟨_, ht, by simp, flush_raised _, fun k hk => ?_, fun l => (exec_withSent c s l).trans ht⟩
  rw [run_const _ _ k hk, run_const _ _ k hk]
  rfl

end Sys2Proof.Machine

/-!
PROOFS of the limits of the Lomush Object Transfer (spec/02_object_catalogue.md R48–R50). The first part says once what an
answer on a transport leaves behind; the second counts the transactions that a script can add to a transport.
-/

namespace Sys2Proof.Machine

/-! ## The end of a command, for the parts of the data that no stamp moves -/

/-- Stamping raised items appends stamps and mirror messages, and changes nothing else of the data. -/
theorem stampItems_keeps {α : Type} (g : Data → α) (h : ∀ d st se, g { d with stamps := st, sent := se } = g d) (s : State)
    (l : List (Key × List Nat)) (n : Int) (d : Data) : g (s.stampItems l n d) = g d := by
  induction l generalizing n d with
  | nil => rfl
  | cons x l ih => exact (ih _ _).trans (h d _ _)

theorem flush_keepsData {α : Type} (g : Data → α) (h : ∀ d st se, g { d with stamps := st, sent := se } = g d)
    (hr : ∀ d r, g { d with raised := r } = g d) (u : State) : g (flush.run u).d = g u.d := by
  obtain ⟨-, -, -, -, hd, -⟩ := flush_effect u
  rw [hd, hr]
  split
  · exact stampItems_keeps g h _ _ _ _
  · rfl

theorem flush_txns (u : State) : (flush.run u).d.txns = u.d.txns :=
  flush_keepsData Data.txns (fun _ _ _ => rfl) (fun _ _ => rfl) u

theorem flush_assocs (u : State) : (flush.run u).d.assocs = u.d.assocs :=
  flush_keepsData Data.assocs (fun _ _ _ => rfl) (fun _ _ => rfl) u

/-- On a SOLO unit, or where nothing was raised, the hand-over sends and stamps nothing (R372). -/
theorem flush_data_quiet {u : State} (h : u.o R.pairRole = 0 ∨ u.d.raised = []) :
    (flush.run u).d = { u.d with raised := [] } := by
  obtain ⟨-, -, -, -, hd, -⟩ := flush_effect u
  rw [hd]
  rcases h with h | h
  · have hp : u.produces = false := by simp [State.produces, h]
    simp [hp]
  · simp [h, sortRaised, State.stampItems]

/-! ## Scripts under a condition, for the rules of `Keeps` and `KeepsPart` -/

theorem Keeps.ite {c : Prop} [Decidable c] {a b : Script} {k : Key} (ha : Keeps a k) (hb : Keeps b k) :
    Keeps (if c then a else b) k := by
  split
  · exact ha
  · exact hb

theorem KeepsPart.ite {α : Type} {f : State → α} {c : Prop} [Decidable c] {a b : Script} (ha : KeepsPart f a)
    (hb : KeepsPart f b) : KeepsPart f (if c then a else b) := by
  split
  · exact ha
  · exact hb

/-! ## A frame of the firmware (R281, R287) -/

/-- All of the state but the registers, the frames that wait for buffer 0 and the items raised. -/
def State.besideFrames (s : State) : Store × Store × List Queue × Data :=
  (s.active, s.shadow, s.queues, { s.d with canFw := [], raised := [] })

theorem put_keepsBesideFrames (k : Key) (v : Int) : KeepsPart State.besideFrames (put k v) :=
  fun s => by simp [State.besideFrames]

theorem canWaken_keepsBesideFrames (p cause : Nat) : KeepsPart State.besideFrames (canWaken p cause) := by
  have hput := put_keepsBesideFrames
  exact .dyn fun s => .ite (hput _ _)
    (.cons (hput _ _) (.cons (hput _ _) (.cons (hput _ _) (.cons (hput _ _) (.cons (fun _ => rfl) .nil)))))

theorem fwLoad_keepsBesideFrames (p : Nat) : KeepsPart State.besideFrames (fwLoad p) := by
  have hput := put_keepsBesideFrames
  refine .dyn fun s => .ite .skip ?_
  split
  · exact .skip
  · exact .cons (hput _ _) (.cons (hput _ _) (.cons (hput _ _) (.cons (hput _ _) (.cons (hput _ _) (.cons (hput _ _)
      (.cons (hput _ _) (.cons (hput _ _) .nil)))))))

theorem fwQueue_keepsBesideFrames (f : FwFrame) : KeepsPart State.besideFrames (fwQueue f) :=
  .dyn fun _ => .cons (fun _ => rfl) (.cons (.ite (put_keepsBesideFrames _ _) .skip)
    (.cons (canWaken_keepsBesideFrames _ _) (.cons (fwLoad_keepsBesideFrames _) .nil)))

/-- What a frame of the firmware leaves of the copies and the data. -/
theorem fwQueue_frame (f : FwFrame) (s : State) :
    ((fwQueue f).run s).active = s.active ∧ ((fwQueue f).run s).shadow = s.shadow ∧
    ((fwQueue f).run s).d.sent = s.d.sent ∧ ((fwQueue f).run s).d.txns = s.d.txns ∧
    ((fwQueue f).run s).d.stamps = s.d.stamps ∧ ((fwQueue f).run s).d.assocs = s.d.assocs := by
  have h := fwQueue_keepsBesideFrames f s
  simp only [State.besideFrames, Prod.mk.injEq, Data.mk.injEq] at h
  simp only [h, and_self]

/-- The registers that `canSends` names, one by one: a key outside them is none of them at any port. -/
theorem ne_of_not_canSends {k : Key} (h : ∀ r ∈ canSends, ¬ r k) {p : Nat} (hp : p < 3) :
    (∀ r ∈ [R.txbId, R.txbFlags, R.txbLen, R.txbData, R.txbTime, R.txbState, R.txbAttempts, R.txbStop], k ≠ r (txb p 0)) ∧
    (∀ r ∈ [R.canSleep, R.canRejoin, R.wakeCount, R.wakeCause], k ≠ r p) := by
  have hx : txb p 0 < 9 := by unfold txb; omega
  simp only [canSends, List.forall_mem_cons] at h
  obtain ⟨h1, h2, h3, h4, h5, h6, h7, h8, h9, h10, h11, h12, -⟩ := h
  simp only [List.forall_mem_cons]
  exact ⟨⟨fam_ne h1 hx, fam_ne h2 hx, fam_ne h3 hx, fam_ne h4 hx, fam_ne h5 hx, fam_ne h6 hx, fam_ne h7 hx, fam_ne h8 hx,
    by simp⟩, ⟨fam_ne h9 hp, fam_ne h10 hp, fam_ne h11 hp, fam_ne h12 hp, by simp⟩⟩

/-- A frame of the firmware moves no register but its buffer's and the port's waking. -/
theorem fwQueue_keeps (f : FwFrame) (hp : f.port < 3) {k : Key} (h : ∀ r ∈ canSends, ¬ r k) : Keeps (fwQueue f) k := by
  obtain ⟨hbuf, hport⟩ := ne_of_not_canSends h hp
  simp only [List.forall_mem_cons] at hbuf hport
  obtain ⟨hid, hflags, hlen, hdata, htime, hstate, hatt, hstop, -⟩ := hbuf
  obtain ⟨hsleep, hrejoin, hcount, hcause, -⟩ := hport
  have hwaken : Keeps (canWaken f.port 3) k := by
    exact .dyn fun s => .ite (.put _ _ _ hsleep) (.cons (.put _ _ _ hsleep) (.cons (.put _ _ _ hrejoin)
      (.cons (.put _ _ _ hcount) (.cons (.put _ _ _ hcause) (.cons (.event _ _ _ _ _) (.nil k))))))
  have hload : Keeps (fwLoad f.port) k := by
    refine .dyn fun s => .ite (.skip k) ?_
    split
    · exact .skip k
    · exact .cons (.put _ _ _ hid) (.cons (.put _ _ _ hflags) (.cons (.put _ _ _ hlen) (.cons (.put _ _ _ hdata)
        (.cons (.put _ _ _ htime) (.cons (.put _ _ _ hatt) (.cons (.put _ _ _ hstop) (.cons (.put _ _ _ hstate)
        (.nil k))))))))
  exact .dyn fun s => .cons (.upd _ _) (.cons (.ite (.put _ _ _ hdata) (.skip k)) (.cons hwaken (.cons hload (.nil k))))

/-! ## An answer on a transport (R48, R49) -/

/-- What an answer leaves when its script has run: the message is sent, and nothing else moves but, over CAN FD, the buffer
that carries it. -/
theorem lotSend_frame (t : Inst) (h : LotHdr) (data : List Byte) (s : State) :
    (∀ k, (∀ r ∈ canSends, ¬ r k) → ((lotSend t h data).run s).o k = s.o k) ∧
    ((lotSend t h data).run s).active = s.active ∧ ((lotSend t h data).run s).shadow = s.shadow ∧
    ((lotSend t h data).run s).d.sent = s.d.sent ++ [.lot t h data] ∧ ((lotSend t h data).run s).d.txns = s.d.txns ∧
    ((lotSend t h data).run s).d.stamps = s.d.stamps ∧ ((lotSend t h data).run s).d.assocs = s.d.assocs := by
  cases t with
  | can p => exact ⟨fun k hk => fwQueue_keeps _ p.isLt hk _, fwQueue_frame _ _⟩
  | udp a => exact ⟨fun _ _ => rfl, rfl, rfl, rfl, rfl, rfl, rfl⟩
  | mailbox => exact ⟨fun _ _ => rfl, rfl, rfl, rfl, rfl, rfl, rfl⟩

/-- Off the CAN ports an answer raises no item. -/
theorem lotSend_raised {t : Inst} (ht : ∀ p, t ≠ .can p) (h : LotHdr) (data : List Byte) (s : State) :
    ((lotSend t h data).run s).d.raised = s.d.raised := by
  cases t with
  | can p => exact absurd rfl (ht p)
  | udp a => rfl
  | mailbox => rfl

theorem pairRole_not_canSends : ∀ r ∈ canSends, ¬ r R.pairRole := by
  simp only [canSends, fam, List.forall_mem_cons, List.not_mem_nil, false_imp_iff, implies_true]
  decide

/-- A command whose script is one answer. -/
theorem lotSend_answers (t : Inst) (h : LotHdr) (data : List Byte) (s : State) :
    Answers t [(h, data)] s.d.txns s (flush.run ((lotSend t h data).run s.fresh)) := by
  obtain ⟨ho, ha, hs, hsent, htxns, hstamps, hassocs⟩ := lotSend_frame t h data s.fresh
  have hquiet : s.d.raised = [] → (s.o R.pairRole = 0 ∨ ∀ p, t ≠ .can p) →
      (flush.run ((lotSend t h data).run s.fresh)).d = { ((lotSend t h data).run s.fresh).d with raised := [] } := by
    intro hr hq
    refine flush_data_quiet (hq.imp (fun hsolo => ?_) (fun ht => ?_))
    · exact (ho _ pairRole_not_canSends).trans hsolo
    · exact (lotSend_raised ht h data _).trans hr
  refine ⟨fun hr hq => ?_, ?_, fun hr hq => ?_, ?_, within_of (by simp) (by simp) (fun k _ hk _ => ho k hk) ha hs⟩
  · rw [hquiet hr hq]; exact hsent
  · exact (flush_txns _).trans htxns
  · rw [hquiet hr hq]; exact hstamps
  · exact (flush_assocs _).trans hassocs

/-! ## How many transactions a script adds to a transport (R50) -/

/-- Whatever state it starts from, the script leaves at most `n` transactions more open on the transport. -/
def Opens (t : Inst) (n : Nat) (sc : Script) : Prop := ∀ s, ((sc.run s).openOn t).length ≤ (s.openOn t).length + n

theorem Opens.of_keeps {t : Inst} {n : Nat} {sc : Script} (h : KeepsPart (fun s => s.d.txns) sc) : Opens t n sc := by
  intro s
  have hs : (sc.run s).d.txns = s.d.txns := h s
  unfold State.openOn
  rw [hs]
  exact Nat.le_add_right _ _

theorem Opens.seq {t : Inst} {m n : Nat} {a b : Script} (ha : Opens t m a) (hb : Opens t n b) :
    Opens t (m + n) (.seq a b) := by
  intro s
  have h₁ := ha s
  have h₂ := hb (a.run s)
  rw [run_seq]
  omega

theorem Opens.dyn {t : Inst} {n : Nat} {f : State → Script} (h : ∀ s, Opens t n (f s)) : Opens t n (.dyn f) :=
  fun s => h s s

theorem Opens.skip {t : Inst} {n : Nat} : Opens t n .skip := .of_keeps .skip

theorem Opens.ite {t : Inst} {n : Nat} {c : Prop} [Decidable c] {a b : Script} (ha : Opens t n a) (hb : Opens t n b) :
    Opens t n (if c then a else b) := by
  split
  · exact ha
  · exact hb

/-- A transaction kept in a new form replaces that of its tag, or is one more. -/
theorem keepTxn_opens (t : Inst) (x : Txn) : Opens t 1 (keepTxn x) := by
  intro s
  show ((upsert (fun y => decide (y.inst = x.inst) && decide (y.tag = x.tag)) x s.d.txns).filter
    fun y => decide (y.inst = t)).length ≤ (s.d.txns.filter fun y => decide (y.inst = t)).length + 1
  unfold upsert
  split
  · have hinst : ∀ y : Txn, (if (decide (y.inst = x.inst) && decide (y.tag = x.tag)) = true then x else y).inst = y.inst := by
      intro y
      split
      · rename_i hsame
        simp only [Bool.and_eq_true, decide_eq_true_eq] at hsame
        exact hsame.1.symm
      · rfl
    simp only [List.filter_map, List.length_map, Function.comp_def, hinst]
    omega
  · rw [List.filter_append, List.length_append]
    have := List.length_filter_le (fun y : Txn => decide (y.inst = t)) [x]
    simp only [List.length_singleton] at this
    omega

theorem dropTxn_opens (t u : Inst) (tag : Nat) : Opens t 0 (dropTxn u tag) := by
  intro s
  show ((s.d.txns.filter _).filter _).length ≤ (s.d.txns.filter _).length + 0
  rw [List.filter_filter]
  simp only [Nat.add_zero, ← List.countP_eq_length_filter]
  refine List.countP_mono_left fun y _ hy => ?_
  simp only [Bool.and_eq_true] at hy
  exact hy.1

section
variable (t : Inst)

theorem lotSend_opens {n : Nat} (u : Inst) (h : LotHdr) (data : List Byte) : Opens t n (lotSend u h data) :=
  .of_keeps fun s => by
    obtain ⟨-, -, -, -, htxns, -⟩ := lotSend_frame u h data s
    exact htxns

theorem lotAbortTo_opens {n : Nat} (u : Inst) (h : LotHdr) (code detail : Nat) : Opens t n (lotAbortTo u h code detail) :=
  lotSend_opens t _ _ _

theorem abortTxn_opens (x : Txn) (code detail : Nat) : Opens t 0 (abortTxn x code detail) :=
  (dropTxn_opens t _ _).seq (n := 0) (lotAbortTo_opens t _ _ _ _)

theorem sendValue_opens (u : Inst) (h : LotHdr) (data : List Byte) : Opens t 1 (sendValue u h data) :=
  .dyn fun _ => (lotSend_opens t _ _ _).seq (m := 0) (n := 1) (.ite .skip (keepTxn_opens t _))

theorem put_keepsTxns (k : Key) (v : Int) : KeepsPart (fun s => s.d.txns) (put k v) := fun s => by simp

/-- A refusal is recorded in registers alone. -/
theorem recordRefusal_opens (src : Src) (k : Key) (w : Why) : Opens t 0 (recordRefusal src k w) := by
  have hput := put_keepsTxns
  have hrefuse (e index : Nat) : KeepsPart (fun s => s.d.txns) (refuse e index src) :=
    .dyn fun _ => .cons (hput _ _) (.cons (hput _ _) (.cons (hput _ _) (.cons (hput _ _) (.cons (hput _ _) .nil))))
  exact .of_keeps (.cons (.ite .skip (hrefuse _ _)) (.cons (.ite (hput _ _) .skip) (.cons (.ite (hput _ _) .skip) .nil)))

theorem acceptLocal_keepsTxns (src : Src) (tag : Nat) (inp : Input) :
    KeepsPart (fun s => s.d.txns) (acceptLocal src tag inp) :=
  .dyn fun _ => .cons (fun _ => rfl) (.cons (.dyn fun _ => put_keepsTxns _ _) .nil)

theorem accept_keepsTxns (src : Src) (tag : Nat) (inp : Input) : KeepsPart (fun s => s.d.txns) (accept src tag inp) :=
  .dyn fun _ => .seq (.ite (fun _ => rfl) .skip) (acceptLocal_keepsTxns src tag inp)

/-- A write taken waits as a stamp, or goes to the partner. -/
theorem takeWrite_opens (src : Src) (tag : Nat) (k : Key) (v : Int) : Opens t 0 (takeWrite src tag k v) :=
  .of_keeps (.dyn fun _ => .ite (fun _ => rfl) (.ite (acceptLocal_keepsTxns _ _ _) (accept_keepsTxns _ _ _)))

section
variable {refused : Why → Script} (hrefused : ∀ w, Opens t 0 (refused w))
include hrefused

theorem tryWrite_opens (src : Src) (tag : Nat) (k : Key) (v : Int) : Opens t 0 (tryWrite src tag k v refused) := by
  refine .dyn fun s => ?_
  split
  · exact (recordRefusal_opens t _ _ _).seq (hrefused _)
  · exact takeWrite_opens t _ _ _ _

theorem deliverValue_opens (src : Src) (tag ix sub : Nat) (data : List Byte) :
    Opens t 0 (deliverValue src tag ix sub data refused) := by
  refine .dyn fun s => ?_
  split
  · -- A native object.
    exact tryWrite_opens t hrefused _ _ _ _
  · -- A mirror object: the write of the native one, and the commit of a shadowed one's group (R62).
    dsimp only
    split
    · exact (recordRefusal_opens t _ _ _).seq (hrefused _)
    · refine (takeWrite_opens t _ _ _ _).seq (n := 0) ?_
      split
      · exact takeWrite_opens t _ _ _ _
      · exact .skip
  · -- An object of the partition.
    exact .of_keeps fun _ => rfl
  · exact .skip

end

theorem writeWhole_opens (x : Txn) : Opens t 1 (writeWhole x) :=
  .dyn fun _ => (keepTxn_opens t _).seq (deliverValue_opens t (fun _ => abortTxn_opens t _ _ _) _ _ _ _ _)

end

/-! ## A request that may open a transaction (R50) -/

section
variable {s : State} {t : Inst} {h : LotHdr} {go : Script}

theorem run_opening_of_tagInUse {x : Txn} (hx : s.txn t h.tag = some x) :
    (opening t h go).run s = (lotAbortTo t h 3 h.tag).run s := by
  simp only [opening, run_dyn, hx, Option.isSome_some, if_true]

theorem run_opening_of_full (hx : s.txn t h.tag = none) (hn : 4 ≤ (s.openOn t).length) :
    (opening t h go).run s = (lotAbortTo t h 4 0).run s := by
  unfold State.openOn at hn
  simp only [opening, run_dyn, hx, Option.isSome_none, Bool.false_eq_true, if_false, hn, if_true]

/-- A request that opens at most one transaction never takes the transport past four. -/
theorem opening_length_le (hgo : Opens t 1 go) (hn : (s.openOn t).length ≤ 4) :
    (((opening t h go).run s).openOn t).length ≤ 4 := by
  unfold opening
  simp only [run_dyn]
  split
  · exact Nat.le_trans (lotAbortTo_opens t (n := 0) t h 3 h.tag s) hn
  · split
    · exact Nat.le_trans (lotAbortTo_opens t (n := 0) t h 4 0 s) hn
    · rename_i hfree
      have hroom : ¬ 4 ≤ (s.openOn t).length := hfree
      have := hgo s
      omega

section
variable {i : Instr} {c : State → Bool} (he : exec i s = doesIf c (opening t h go) s) (hc : c s.fresh = true)
include he hc

theorem does_opening_of_tagInUse {x : Txn} (hx : s.txn t h.tag = some x) :
    Does i s (Answers t [abortOf h 3 h.tag] s.d.txns s) := by
  refine does_of he hc ?_
  rw [run_opening_of_tagInUse (s := s.fresh) hx]
  exact lotSend_answers t _ _ s

theorem does_opening_of_full (hx : s.txn t h.tag = none) (hn : 4 ≤ (s.openOn t).length) :
    Does i s (Answers t [abortOf h 4 0] s.d.txns s) := by
  refine does_of he hc ?_
  rw [run_opening_of_full (s := s.fresh) hx hn]
  exact lotSend_answers t _ _ s

theorem does_opening_length_le (hgo : Opens t 1 go) (hn : (s.openOn t).length ≤ 4) :
    Does i s fun u => (u.openOn t).length ≤ 4 := by
  refine does_of he hc ?_
  have hle := opening_length_le (s := s.fresh) (h := h) hgo hn
  unfold State.openOn at hle ⊢
  rwa [flush_txns]

end

end

@[simp] theorem fresh_carries (s : State) (t : Inst) : s.fresh.carries t = s.carries t := rfl

/-- A read opens a transaction for a value that it sends in segments, or to wait for the partition (R48, R60). -/
theorem exec_lotReadReq (t : Inst) (h : LotHdr) (s : State) : ∃ go, Opens t 1 go ∧
    exec (.lotReadReq t h) s = doesIf (fun s => s.carries t && h.service = 1) (opening t h go) s := by
  refine ⟨_, .dyn fun s => ?_, rfl⟩
  dsimp only
  split
  case h_1 => exact lotAbortTo_opens t _ _ _ _
  case h_2 => exact sendValue_opens t _ _ _
  case h_3 => exact .ite ((keepTxn_opens t _).seq (n := 0) (.of_keeps fun _ => rfl)) (lotAbortTo_opens t _ _ _ _)
  case h_4 | h_5 =>
    -- A native object, and the one that a mirror object stands for.
    split
    · exact lotAbortTo_opens t _ _ _ _
    · have hput := put_keepsTxns
      have hcount : KeepsPart (fun s => s.d.txns) (.seq (bump R.mirrorSatCount) (put R.mirrorLastSat h.index)) :=
        .seq (.dyn fun _ => hput _ _) (hput _ _)
      exact (Opens.of_keeps (n := 0) (.ite hcount .skip)).seq (sendValue_opens t _ _ _)

/-- A write opens a transaction that asks for its segments, or waits for its stamp or the partition (R48, R60). -/
theorem exec_lotWriteReq (t : Inst) (h : LotHdr) (data : List Byte) (s : State) : ∃ go, Opens t 1 go ∧
    exec (.lotWriteReq t h data) s = doesIf (fun s => s.carries t && h.service = 3) (opening t h go) s := by
  refine ⟨_, .dyn fun s => ?_, rfl⟩
  dsimp only
  split
  · refine Opens.seq (m := 0) (n := 1) ?_ (lotAbortTo_opens t _ _ _ _)
    split
    · exact recordRefusal_opens t _ _ _
    · exact .skip
  · exact .ite (lotAbortTo_opens t _ _ _ _)
      (.ite (writeWhole_opens t _) ((keepTxn_opens t _).seq (n := 0) (lotSend_opens t _ _ _)))

/-- Settles O15: a read and a write both go through `opening`, and what follows it adds at most one transaction. -/
theorem lotLimits : Obligations.LotLimits := by
  intro s t h data hc
  obtain ⟨readGo, hreadGo, hread⟩ := exec_lotReadReq t h s
  obtain ⟨writeGo, hwriteGo, hwrite⟩ := exec_lotWriteReq t h data s
  have hcr (h1 : h.service = 1) : (s.fresh.carries t && decide (h.service = 1)) = true := by simp [hc, h1]
  have hcw (h3 : h.service = 3) : (s.fresh.carries t && decide (h.service = 3)) = true := by simp [hc, h3]
  refine ⟨fun x hx => ⟨fun h1 => ?_, fun h3 => ?_⟩, fun hx hn => ⟨fun h1 => ?_, fun h3 => ?_⟩,
    fun hn => ⟨fun h1 => ?_, fun h3 => ?_⟩⟩
  · exact does_opening_of_tagInUse hread (hcr h1) hx
  · exact does_opening_of_tagInUse hwrite (hcw h3) hx
  · exact does_opening_of_full hread (hcr h1) hx hn
  · exact does_opening_of_full hwrite (hcw h3) hx hn
  · exact does_opening_length_le hread (hcr h1) hreadGo hn
  · exact does_opening_length_le hwrite (hcw h3) hwriteGo hn

end Sys2Proof.Machine

/-!
PROOFS of the statement about DTLS associations and the write of one object (spec/02_object_catalogue.md R43, R49, R54,
R55). A handshake is told by the lowest free association; a write by index and subindex is, where its value has the right
length, the command that writes the object.
-/

namespace Sys2Proof.Machine

/-! ## DTLS handshakes (R54, R55) -/

/-- A command that sends one message has no other effect. -/
theorem send_effect (m : Sent) (s : State) :
    Effect [] (fun d => { d with sent := [m] }) [] s (flush.run ((send m).run s.fresh)) :=
  effect_of (by simp) (by simp) rfl rfl rfl (by simp) (by simp) (by simp) (by simp) (by simp) (by simp) (by simp)

/-- A command that opens one association has no other effect. -/
theorem addAssoc_effect (x : Assoc) (s : State) :
    Effect [] (fun d => { d with assocs := d.assocs ++ [x] }) [] s
      (flush.run ((upd fun d => { d with assocs := d.assocs ++ [x] }).run s.fresh)) :=
  effect_of (by simp) (by simp) rfl rfl rfl (by simp) (by simp) (by simp) (by simp) (by simp) (by simp) (by simp)

@[simp] theorem fresh_anchorIn (s : State) (slot : Int) : s.fresh.anchorIn slot = s.anchorIn slot := rfl

theorem find_free_eq_none {l : List Assoc} (h : ∀ n : Fin 4, ∃ x ∈ l, x.num = n) :
    ((List.finRange 4).find? fun n => !(l.any fun x => x.num = n)) = none := by
  simpa using h

/-- The free association that the search finds is the lowest. -/
theorem find_free_eq_some {l : List Assoc} {n : Fin 4} (hfree : ∀ x ∈ l, x.num ≠ n)
    (hlow : ∀ m, m < n → ∃ x ∈ l, x.num = m) :
    ((List.finRange 4).find? fun n => !(l.any fun x => x.num = n)) = some n := by
  rw [List.find?_eq_some_iff_getElem]
  refine ⟨by simpa using hfree, n.val, by simp, by simp, fun m hm => ?_⟩
  simpa using hlow ⟨m, by omega⟩ hm

theorem associationsOpen : Sys2Proof.Parts.AssociationsOpen := by
  intro s o hserves hnw hmask good reads writes
  have hc : (s.fresh.serves && (decide (s.fresh.island iNW = 2) || decide (s.fresh.island iNW = 3))
      && s.fresh.a R.udpEthMask != 0) = true := by
    simp only [Bool.and_eq_true, Bool.or_eq_true, decide_eq_true_eq, bne_iff_ne]
    exact ⟨⟨hserves, hnw⟩, hmask⟩
  refine ⟨fun hall => does_of rfl hc ?_, fun n hfree hlow => ?_⟩
  · simp only [run_dyn, find_free_eq_none (l := s.fresh.d.assocs) hall]
    exact send_effect _ s
  · have hn := find_free_eq_some (l := s.fresh.d.assocs) hfree hlow
    refine ⟨fun hbad => does_of rfl hc ?_, fun hgood hrights => does_of rfl hc ?_, fun hgood hrights => does_of rfl hc ?_⟩
    · simp only [good] at hbad
      simp only [run_dyn, hn, hbad, Bool.not_false, if_true]
      exact send_effect _ s
    · simp only [good, reads, writes] at hgood hrights
      simp only [run_dyn, hn, hgood, fresh_a, fresh_anchorIn, hrights, Bool.not_true, Bool.false_eq_true, if_false, if_true]
      exact addAssoc_effect _ s
    · simp only [good, reads, writes] at hgood hrights
      simp only [run_dyn, hn, hgood, fresh_a, fresh_anchorIn, hrights, Bool.not_true, Bool.false_eq_true, if_false]
      exact send_effect _ s

/-! ## A write by index and subindex (R43, R49) -/

/-- Below 5000h an index and a subindex name a native object (R46). -/
theorem target_native (s : State) {ix : Nat} (sub : Nat) (h : ix < 0x5000) : s.target ix sub = .native (ix * 256 + sub) := by
  have h₁ : ¬ 0x5000 ≤ ix := by omega
  have h₂ : ¬ 0x6000 ≤ ix := by omega
  have h₃ : ¬ 0x10000 ≤ ix := by omega
  simp [State.target, h₁, h₂, h₃]

/-- A native object that the source may write takes a value of its type's length (R42). -/
theorem writeLen_native {s : State} {src : Src} {k : Key} (h : s.keyRefusal src k = none) :
    s.writeLen src (.native k) = .inr (tyOf k).bytes := by
  simp only [State.writeLen, h]

section
variable {s : State} {src : Src} {index sub : Nat} {data : List Byte} (hix : index < 0x5000)
  (hk : s.keyRefusal src (index * 256 + sub) = none)
include hix hk

/-- Where the value has its object's length, the write is the command that writes the object. -/
theorem exec_objectWrite_of_length (hlen : data.length = (tyOf (index * 256 + sub)).bytes) :
    exec (.objectWrite src index sub data) s =
      writeRow src (index * 256 + sub) (ofBytes (tyOf (index * 256 + sub)) data) s := by
  have hw : s.fresh.writeLen src (.native (index * 256 + sub)) = .inr (tyOf (index * 256 + sub)).bytes := writeLen_native hk
  show execObjectWrite src index sub data s = _
  simp only [execObjectWrite, writeRow, doesIf, does_eq, run_dyn, run_onlyIf, target_native _ sub hix, hw, hlen, if_true,
    deliverValue]

theorem objectWrite_wrong_length (hs : s.serves = true) (hlen : data.length ≠ (tyOf (index * 256 + sub)).bytes) :
    Does (.objectWrite src index sub data) s
      (Effect [] (fun d => { d with sent := [.refusedWrite src 0x21 (tyOf (index * 256 + sub)).bytes] }) [] s) := by
  have hw : s.fresh.writeLen src (.native (index * 256 + sub)) = .inr (tyOf (index * 256 + sub)).bytes := writeLen_native hk
  refine does_of (c := State.serves) rfl hs ?_
  simp only [run_dyn, target_native _ sub hix, hw, hlen, if_false]
  exact send_effect _ s

end

theorem objectWriteReachesItsObject : Sys2Proof.Parts.ObjectWriteReachesItsObject := by
  intro s src index sub data hr hix k
  refine ⟨fun hlen ha hswap => ?_, fun hs hk hlen => objectWrite_wrong_length hix hk hs hlen⟩
  have he := exec_objectWrite_of_length hix ha.object hlen
  exact ⟨fun hu => row_waits he hr hswap hu ha, fun hu => row_waits_here he hr hswap hu ha⟩

/-- Settles O18: a handshake by the lowest free association, a write by the command that writes its object. -/
theorem associationsAndObjectWrites : Obligations.AssociationsAndObjectWrites :=
  ⟨associationsOpen, objectWriteReachesItsObject⟩

end Sys2Proof.Machine

/-!
PROOFS of the statement about a module's trips, releases and latch (spec/07_phase_scheduling_protection.md R168–R170, R173).
`Touches` says which registers a script may write; from it follow the frames, and what each part of a script leaves of what
an earlier part wrote. The legs are then followed one by one through the scripts that go over them.
-/

namespace Sys2Proof.Machine

/-! ## Bits of a register -/

/-- A bit that is set counts its power of two. -/
theorem toNat_eq_of_bit {v : Int} {i : Nat} (h : bit v i = true) :
    ∃ x, v.toNat = 2 ^ i + x ∧ (withBit v i false).toNat = x := by
  obtain ⟨x, hx⟩ := Nat.exists_eq_add_of_le (Nat.ge_two_pow_of_testBit h)
  refine ⟨x, hx, ?_⟩
  have hcast : ((2 ^ i : Nat) : Int) = 2 ^ i := by simp
  have hpos := Nat.two_pow_pos i
  simp only [withBit, h, Bool.true_eq_false, Bool.false_eq_true, if_false]
  omega

theorem bit_withBit_false_same (v : Int) (i : Nat) : bit (withBit v i false) i = false := by
  cases h : bit v i with
  | false => simp [withBit, h]
  | true =>
    obtain ⟨x, hv, hx⟩ := toNat_eq_of_bit h
    simp only [bit, hv, Nat.testBit_two_pow_add_eq] at h
    simpa [bit, hx] using h

/-- Clearing a bit leaves those below it. -/
theorem bit_withBit_false_below (v : Int) {i j : Nat} (hj : j < i) : bit (withBit v i false) j = bit v j := by
  cases h : bit v i with
  | false => simp [withBit, h]
  | true =>
    obtain ⟨x, hv, hx⟩ := toNat_eq_of_bit h
    simp only [bit, hv, hx, Nat.testBit_two_pow_add_gt hj]

/-! ## Which registers a script may write -/

/-- From `s` the script writes registers of `p` alone, and no copy. -/
structure Touches (p : Key → Prop) (sc : Script) (s : State) : Prop where
  others : ∀ k, ¬ p k → (sc.run s).o k = s.o k
  active : (sc.run s).active = s.active
  shadow : (sc.run s).shadow = s.shadow

section
variable {p q : Key → Prop} {a b : Script} {s : State}

theorem Touches.mono (h : Touches p a s) (hpq : ∀ k, p k → q k) : Touches q a s :=
  ⟨fun k hk => h.others k fun hp => hk (hpq k hp), h.active, h.shadow⟩

theorem Touches.skip : Touches p .skip s := ⟨fun _ _ => rfl, rfl, rfl⟩

theorem Touches.put {k : Key} {v : Int} (h : p k) : Touches p (put k v) s :=
  ⟨fun k' hk => put_o_other k k' v s fun e => hk (e ▸ h), put_active k v s, put_shadow k v s⟩

theorem Touches.seq (ha : Touches p a s) (hb : Touches p b (a.run s)) : Touches p (.seq a b) s :=
  ⟨fun k hk => (hb.others k hk).trans (ha.others k hk), hb.active.trans ha.active, hb.shadow.trans ha.shadow⟩

theorem Touches.dyn {f : State → Script} (h : Touches p (f s) s) : Touches p (.dyn f) s := ⟨h.others, h.active, h.shadow⟩

theorem Touches.nil : Touches p (all []) s := .skip

theorem Touches.cons {l : List Script} (ha : Touches p a s) (hl : Touches p (all l) (a.run s)) : Touches p (all (a :: l)) s :=
  ha.seq hl

theorem Touches.ite {c : Prop} [Decidable c] (ha : Touches p a s) (hb : Touches p b s) :
    Touches p (if c then a else b) s := by
  split
  · exact ha
  · exact hb

theorem Touches.each {α : Type} {l : List α} {f : α → Script} (h : ∀ x ∈ l, ∀ t, Touches p (f x) t) :
    Touches p (each l f) s := by
  induction l generalizing s with
  | nil => exact .skip
  | cons x l ih => exact (h x List.mem_cons_self s).seq (ih fun y hy => h y (List.mem_cons_of_mem _ hy))

end

/-- The frame of a command whose script writes the registers of `l` and of the families `may` alone. -/
theorem Touches.within {l : List (Key × Int)} {may : List (Key → Prop)} {sc : Script} {s : State}
    (h : Touches (fun k => k ∈ l.map Prod.fst ∨ ∃ p ∈ may, p k) sc s.fresh)
    (hr : ∀ e ∈ l, (sc.run s.fresh).o e.1 = norm e.1 e.2) (hl : ∀ e ∈ l, isQCount e.1 = false ∧ e.1 ≠ R.seqNo) :
    Within l may s (flush.run (sc.run s.fresh)) :=
  within_of hr hl (fun k hk hmay _ => h.others k fun hp => hp.elim hk fun ⟨p, hp, hpk⟩ => hmay p hp hpk) h.active h.shadow

/-- Of scripts one after another, one element's establishes `P` wherever `I` holds, and every element's keeps both. -/
theorem run_each_establishes {α : Type} (I P : State → Prop) {l : List α} {f : α → Script} {x : α} (hx : x ∈ l)
    (hP : ∀ t, I t → P ((f x).run t)) (hI : ∀ y ∈ l, ∀ t, I t → I ((f y).run t)) (hkeep : ∀ y ∈ l, ∀ t, P t → P ((f y).run t))
    {s : State} (hs : I s) : P ((each l f).run s) := by
  induction l generalizing s with
  | nil => cases hx
  | cons y l ih =>
    rcases List.mem_cons.mp hx with rfl | hx
    · exact run_each_keeps P l f (fun z hz => hkeep z (List.mem_cons_of_mem _ hz)) _ (hP s hs)
    · exact ih hx (fun z hz => hI z (List.mem_cons_of_mem _ hz)) (fun z hz => hkeep z (List.mem_cons_of_mem _ hz))
        (hI y List.mem_cons_self s hs)

/-- Where one element's script shows `v` and the others' leave what is shown, the whole shows `v` if the element is among
them. -/
theorem run_each_view {α β : Type} [DecidableEq α] (view : State → β) {l : List α} {f : α → Script} {x : α} {v : β}
    (hself : ∀ t, view ((f x).run t) = v) (hother : ∀ y ∈ l, x ≠ y → ∀ t, view ((f y).run t) = view t) (s : State) :
    view ((each l f).run s) = if x ∈ l then v else view s := by
  induction l generalizing s with
  | nil => simp
  | cons y l ih =>
    rw [run_each_cons, ih fun z hz => hother z (List.mem_cons_of_mem _ hz)]
    by_cases hxy : x = y
    · subst hxy; simp [hself]
    · simp [hxy, hother y List.mem_cons_self hxy]

/-! ## Keys of a module and its legs -/

theorem mem_legs {m n : Nat} : n ∈ legs m ↔ ∃ i < 4, n = 4 * m + i := by
  simp only [legs, List.mem_cons, List.not_mem_nil, or_false]
  constructor
  · intro h; exact ⟨n - 4 * m, by omega, by omega⟩
  · rintro ⟨i, hi, rfl⟩; omega

theorem div_of_mem_legs {m n : Nat} (h : n ∈ legs m) : n / 4 = m := by
  obtain ⟨i, hi, rfl⟩ := mem_legs.mp h
  omega

theorem lt_of_mem_legs {m : Pm} {n : Nat} (h : n ∈ legs m) : n < 192 := by
  obtain ⟨i, hi, rfl⟩ := mem_legs.mp h
  omega

/-- The registers in which a module's state shows. -/
def moduleShown (m : Nat) : List Key := [R.modState m, R.modCapW m, R.modFlags m]

/-- What a leg's way between its states may write beside CH_STATE: its loop's state, its retries, and what shows of its
module (R151, R166). -/
def besideState (n : Nat) : List Key :=
  [R.chZ1 n, R.chZ2 n, R.chRef n, R.chIRef n, R.retryCount n, R.modOff (n / 4)] ++ moduleShown (n / 4)

/-- The registers that a leg's way between its states may write. -/
def legRegs (n : Nat) : List Key := R.chState n :: besideState n

theorem page_of_mem_moduleShown {m k : Nat} (h : k ∈ moduleShown m) : k / 256 = 0x2840 + m ∧ 0x10 ≤ k % 256 := by
  simp only [moduleShown, R.modState, R.modCapW, R.modFlags, List.mem_cons, List.not_mem_nil, or_false, Key] at h
  omega

theorem mem_legRegs_of_mem_moduleShown {m n : Nat} (hn : n ∈ legs m) {k : Key} (h : k ∈ moduleShown m) : k ∈ legRegs n := by
  simp [legRegs, besideState, div_of_mem_legs hn, h]

theorem chState_not_mem_besideState (n : Nat) : R.chState n ∉ besideState n := by
  simp only [besideState, moduleShown, R.chState, R.chZ1, R.chZ2, R.chRef, R.chIRef, R.retryCount, R.modOff, R.modState, R.modCapW,
    R.modFlags, List.cons_append, List.nil_append, List.mem_cons, List.not_mem_nil, or_false, Key]
  omega

/-- The pages and subindices of a leg's registers. -/
theorem page_of_mem_legRegs {n k : Nat} (h : k ∈ legRegs n) :
    (k / 256 = 0x3100 + n ∧ (k % 256 = 0x01 ∨ k % 256 = 0x03 ∨ k % 256 = 0x11)) ∨ k / 256 = 0x10200 + n ∨
    (k / 256 = 0x2840 + n / 4 ∧ 0x10 ≤ k % 256) ∨ (k / 256 = 0x10300 + n / 4 ∧ k % 256 = 0x15) := by
  simp only [legRegs, besideState, moduleShown, R.chState, R.chZ1, R.chZ2, R.chRef, R.chIRef, R.retryCount, R.modOff, R.modState,
    R.modCapW, R.modFlags, List.cons_append, List.nil_append, List.mem_cons, List.not_mem_nil, or_false, Key] at h
  omega

/-- The pages of a module's protection (3400h, 34C0h) hold no register of a leg. -/
theorem not_mem_legRegs_of_page {n k : Nat} (hn : n < 192) (h : 0x340000 ≤ k ∧ k < 0x350000) : k ∉ legRegs n := by
  intro hk
  have := page_of_mem_legRegs hk
  omega

/-- The page of a channel holds no register of another leg. -/
theorem not_mem_legRegs_of_channel {n j k : Nat} (hn : n < 192) (hj : j < 192) (hk : k / 256 = 0x3100 + n)
    (h : n ≠ j) : k ∉ legRegs j := by
  intro hm
  have := page_of_mem_legRegs hm
  omega

theorem modConn_not_mem_legRegs {m n : Nat} (hm : m < 48) (hn : n < 192) : R.modConn m ∉ legRegs n := by
  intro h
  have := page_of_mem_legRegs h
  simp only [R.modConn] at this
  omega

/-- A leg's registers are among those of its module. -/
theorem mem_modRegs_of_mem_legRegs {m n : Nat} (hn : n ∈ legs m) {k : Key} (h : k ∈ legRegs n) : ∃ p ∈ modRegs m, p k := by
  have hm := div_of_mem_legs hn
  obtain ⟨i, hi, rfl⟩ := mem_legs.mp hn
  have hself (r : Nat → Key) : fam (fun i => r (4 * m + i)) 4 (r (4 * m + i)) := ⟨i, hi, rfl⟩
  simp only [legRegs, besideState, moduleShown, hm, List.cons_append, List.nil_append, List.mem_cons, List.not_mem_nil, or_false] at h
  simp only [modRegs, List.mem_cons, exists_eq_or_imp]
  rcases h with rfl | rfl | rfl | rfl | rfl | rfl | rfl | rfl | rfl | rfl <;> simp only [hself, true_or, or_true]

/-- Where a module's fault cards are written: in 34C0h + m, and in the count and the mark beside it (R173–R175). -/
theorem eq_of_cardRegs {m : Nat} {k : Key} (h : ∃ p ∈ cardRegs m, p k) :
    (0x34C001 + 256 * m ≤ k ∧ k ≤ 0x34C00A + 256 * m) ∨ k = 0x340015 + 256 * m ∨ k = 0x103000E + 256 * m := by
  simp only [cardRegs, List.mem_cons, exists_eq_or_imp, List.not_mem_nil, exists_eq_left, or_false, fam] at h
  simp only [R.cardSlot, R.newest, R.lastCardNo, R.modTripCount, R.cardDirty, Key] at h ⊢
  rcases h with ⟨i, hi, h⟩ | h | h | h | h <;> omega

theorem not_cardRegs_of_lt {m : Nat} {k : Nat} (h : k < 0x340000) : ¬ ∃ p ∈ cardRegs m, p k := by
  intro hk
  have := eq_of_cardRegs hk
  simp only [Key] at this
  omega

/-! ## One leg (R151, R166, R169) -/

theorem Touches.cs {p : Key → Prop} {sc : Script} {s : State} (h : Touches p sc s) {n : Nat} (hn : ¬ p (R.chState n)) :
    (sc.run s).cs n = s.cs n := h.others _ hn

theorem tyOf_chState : ∀ n : Ch, tyOf (R.chState n) = .u8 := by decide +kernel

/-- CH_STATE holds every state of a leg. -/
theorem put_chState {n : Nat} (hn : n < 192) {st : Int} (h₀ : 0 ≤ st) (h₁ : st ≤ 255) (s : State) :
    ((put (R.chState n) st).run s).cs n = st := by
  have hconst : isConst (R.chState n) = false := notConst _ (by simp only [R.chState]; omega)
  exact put_o_same _ _ _ hconst (norm_u8 _ _ (tyOf_chState ⟨n, hn⟩) h₀ h₁)

/-- Clearing a leg's loop (R151). -/
theorem clearLoop_touches (n : Nat) (s : State) : Touches (· ∈ besideState n)
    (all [put (R.chZ1 n) 0, put (R.chZ2 n) 0, put (R.chRef n) 0, put (R.chIRef n) 0]) s :=
  .cons (.put (by simp [besideState])) (.cons (.put (by simp [besideState])) (.cons (.put (by simp [besideState]))
    (.cons (.put (by simp [besideState])) .nil)))

theorem setCh_touches (n : Nat) (st : Int) (s : State) : Touches (· ∈ legRegs n) (setCh n st) s :=
  .cons (.put List.mem_cons_self) ((clearLoop_touches n _).mono fun _ => List.mem_cons_of_mem _)

theorem setCh_cs {n : Nat} (hn : n < 192) {st : Int} (h₀ : 0 ≤ st) (h₁ : st ≤ 255) (s : State) :
    ((setCh n st).run s).cs n = st :=
  ((clearLoop_touches n _).cs (chState_not_mem_besideState n)).trans (put_chState hn h₀ h₁ s)

/-- What closing a leg writes beside CH_STATE. -/
theorem startLoop_touches (n : Nat) (s : State) : Touches (· ∈ besideState n)
    (all [put (R.chZ1 n) 0, put (R.chZ2 n) 0, put (R.modOff (n / 4)) 0]) s :=
  .cons (.put (by simp [besideState])) (.cons (.put (by simp [besideState])) (.cons (.put (by simp [besideState])) .nil))

theorem closeLeg_touches (n : Nat) (s : State) : Touches (· ∈ legRegs n) (closeLeg n) s :=
  .dyn (.ite .skip (.ite .skip (.ite
    (.cons (.put List.mem_cons_self) ((startLoop_touches n _).mono fun _ => List.mem_cons_of_mem _)) .skip)))

/-- A leg that is OPEN is CLOSED or stays OPEN (R151). -/
theorem closeLeg_cs {n : Nat} (hn : n < 192) {s : State} (ho : s.cs n = csOpen) :
    ((closeLeg n).run s).cs n = csOpen ∨ ((closeLeg n).run s).cs n = csClosed := by
  simp only [closeLeg, run_dyn]
  split
  · exact .inl ho
  split
  · exact .inl ho
  split
  · exact .inr (((startLoop_touches n _).cs (chState_not_mem_besideState n)).trans (put_chState hn (by decide) (by decide) s))
  · exact .inl ho

theorem refreshMod_touches (m : Nat) (s : State) : Touches (· ∈ moduleShown m) (refreshMod m) s :=
  .dyn (.cons (.put (by simp [moduleShown])) (.cons (.put (by simp [moduleShown])) (.cons (.put (by simp [moduleShown])) .nil)))

theorem retryLeg_touches (n : Nat) (s : State) : Touches (· ∈ legRegs n) (retryLeg n) s := by
  have hshown (t : State) : Touches (· ∈ legRegs n) (refreshMod (n / 4)) t :=
    (refreshMod_touches _ t).mono fun _ h => by simp [legRegs, besideState, h]
  exact .dyn (.ite (.cons (.put (by simp [legRegs, besideState])) (.cons (setCh_touches n _ _) (.cons (closeLeg_touches n _)
    (.cons (hshown _) .nil)))) ((setCh_touches n _ _).seq (hshown _)))

/-- What the release of a module's last trip cause does to one leg (R169). -/
def releaseLeg (n : Nat) : Script :=
  .dyn fun s =>
    if s.hiccupOver n then retryLeg n
    else if s.cs n = csTripped then .seq (setCh n csOpen) (if s.legServes n then closeLeg n else .skip)
    else .skip

theorem releaseLeg_touches (n : Nat) (s : State) : Touches (· ∈ legRegs n) (releaseLeg n) s :=
  .dyn (.ite (retryLeg_touches n s) (.ite ((setCh_touches n _ _).seq (.ite (closeLeg_touches n _) .skip)) .skip))

theorem hiccupOver_eq_false {n : Nat} {s : State} (h : s.cs n ≠ csHiccup) : s.hiccupOver n = false := by
  simp [State.hiccupOver, h]

theorem releaseLeg_cs_of_tripped {n : Nat} (hn : n < 192) {s : State} (h : s.cs n = csTripped) :
    ((releaseLeg n).run s).cs n = csOpen ∨ ((releaseLeg n).run s).cs n = csClosed := by
  have hopen : ((setCh n csOpen).run s).cs n = csOpen := setCh_cs hn (by decide) (by decide) s
  have hover : s.hiccupOver n = false := hiccupOver_eq_false (by rw [h]; decide)
  simp only [releaseLeg, run_dyn, hover, h, Bool.false_eq_true, if_false, if_true, run_seq]
  split
  · exact closeLeg_cs hn hopen
  · exact .inl hopen

/-- A leg in neither TRIPPED nor HICCUP stays as it is. -/
theorem run_releaseLeg_of_other {n : Nat} {s : State} (ht : s.cs n ≠ csTripped) (hh : s.cs n ≠ csHiccup) :
    (releaseLeg n).run s = s := by
  simp only [releaseLeg, run_dyn, hiccupOver_eq_false hh, ht, Bool.false_eq_true, if_false, run_skip]

/-! ## All legs of a module -/

/-- What the release of a module's last trip cause does to its legs (R169). -/
def returnLegs (m : Nat) : Script := .seq (each (legs m) releaseLeg) (refreshMod m)

/-- The registers of a module's legs. -/
def ofLegs (m : Nat) (k : Key) : Prop := ∃ n ∈ legs m, k ∈ legRegs n

theorem refreshMod_touches_ofLegs (m : Nat) (s : State) : Touches (ofLegs m) (refreshMod m) s :=
  (refreshMod_touches m s).mono fun _ h => ⟨4 * m, List.mem_cons_self, mem_legRegs_of_mem_moduleShown List.mem_cons_self h⟩

theorem returnLegs_touches (m : Nat) (s : State) : Touches (ofLegs m) (returnLegs m) s :=
  .seq (.each fun n hn t => (releaseLeg_touches n t).mono fun _ h => ⟨n, hn, h⟩) (refreshMod_touches_ofLegs m _)

theorem not_ofLegs_of_page {m : Pm} {k : Nat} (h : 0x340000 ≤ k ∧ k < 0x350000) : ¬ ofLegs m k :=
  fun ⟨_, hn, hk⟩ => not_mem_legRegs_of_page (lt_of_mem_legs hn) h hk

theorem not_mem_moduleShown_of_page {m : Pm} {k : Nat} (h : 0x310000 ≤ k) : k ∉ moduleShown m := by
  intro hk
  have := page_of_mem_moduleShown hk
  omega

theorem chState_not_mem_moduleShown (n : Nat) (m : Pm) : R.chState n ∉ moduleShown m :=
  not_mem_moduleShown_of_page (by simp only [R.chState]; omega)

section
variable {m : Pm} {n : Nat} (hn : n ∈ legs m)
include hn

/-- A script of another leg leaves CH_STATE. -/
theorem Touches.cs_of_leg {j : Nat} (hj : j ∈ legs m) {sc : Script} {s : State} (h : Touches (· ∈ legRegs j) sc s)
    (hne : n ≠ j) : (sc.run s).cs n = s.cs n := by
  refine h.cs (not_mem_legRegs_of_channel (lt_of_mem_legs hn) (lt_of_mem_legs hj) ?_ hne)
  simp only [R.chState, Key]
  omega

/-- What holds of a leg's state and is kept by its own release is kept by every leg's. -/
theorem releaseLeg_keeps_cs {P : Int → Prop} (hP : ∀ t : State, P (t.cs n) → P (((releaseLeg n).run t).cs n)) :
    ∀ j ∈ legs m, ∀ t : State, P (t.cs n) → P (((releaseLeg j).run t).cs n) := by
  intro j hj t ht
  by_cases hne : n = j
  · subst hne; exact hP t ht
  · rw [(releaseLeg_touches j t).cs_of_leg hn hj hne]; exact ht

theorem returnLegs_cs_of_tripped {s : State} (h : s.cs n = csTripped) :
    ((returnLegs m).run s).cs n = csOpen ∨ ((returnLegs m).run s).cs n = csClosed := by
  have hlt := lt_of_mem_legs hn
  have hstays (t : State) (ht : t.cs n = csOpen ∨ t.cs n = csClosed) : (releaseLeg n).run t = t := by
    rcases ht with ht | ht <;> exact run_releaseLeg_of_other (by rw [ht]; decide) (by rw [ht]; decide)
  have hreturned : ∀ j ∈ legs m, ∀ t : State, t.cs n = csOpen ∨ t.cs n = csClosed →
      ((releaseLeg j).run t).cs n = csOpen ∨ ((releaseLeg j).run t).cs n = csClosed :=
    releaseLeg_keeps_cs hn (P := fun c => c = csOpen ∨ c = csClosed) fun t ht => by rw [hstays t ht]; exact ht
  simp only [returnLegs, run_seq, (refreshMod_touches m _).cs (chState_not_mem_moduleShown n m)]
  refine run_each_establishes (fun t => t.cs n = csTripped ∨ t.cs n = csOpen ∨ t.cs n = csClosed)
    (fun t => t.cs n = csOpen ∨ t.cs n = csClosed) hn ?_ ?_ hreturned (.inl h)
  · rintro t (ht | ht)
    · exact releaseLeg_cs_of_tripped hlt ht
    · exact hreturned n hn t ht
  · exact releaseLeg_keeps_cs hn (P := fun c => c = csTripped ∨ c = csOpen ∨ c = csClosed) fun t ht => by
      rcases ht with ht | ht
      · exact .inr (releaseLeg_cs_of_tripped hlt ht)
      · exact .inr (hreturned n hn t ht)

theorem returnLegs_cs_of_latched {s : State} (h : s.cs n = csLatched) : ((returnLegs m).run s).cs n = csLatched := by
  simp only [returnLegs, run_seq, (refreshMod_touches m _).cs (chState_not_mem_moduleShown n m)]
  refine run_each_keeps (fun t => t.cs n = csLatched) _ _ ?_ s h
  refine releaseLeg_keeps_cs hn (P := (· = csLatched)) fun t ht => ?_
  rw [run_releaseLeg_of_other (by rw [ht]; decide) (by rw [ht]; decide)]
  exact ht

end

/-! ## The release of trip causes (R169) -/

theorem flush_cs (u : State) {n : Nat} (hn : n < 192) : (flush.run u).cs n = u.cs n :=
  flush_o u _ (isQCount_other _ (.inl (by simp only [R.chState]; omega))) (by simp only [R.chState, R.seqNo, Key]; omega)

/-- The pages of a module's protection hold no counter of a queue. -/
theorem not_counter_of_page {k : Nat} (h : 0x340000 ≤ k ∧ k < 0x350000) : isQCount k = false ∧ k ≠ R.seqNo :=
  ⟨isQCount_other k (.inl (by omega)), by simp only [R.seqNo]; omega⟩

theorem flush_o_of_page (u : State) {k : Nat} (h : 0x340000 ≤ k ∧ k < 0x350000) : (flush.run u).o k = u.o k :=
  flush_o u k (not_counter_of_page h).1 (not_counter_of_page h).2

/-- The trip causes of a module that some of its bits leave. -/
def State.causesLeft (s : State) (m : Nat) (bits : List Nat) : Int :=
  bits.foldl (fun v b => withBit v b false) (s.o (R.tripCauses m))

/-- What comes of a module when some of its trip causes go and `left` stays (R169, R170). -/
structure Released (m : Nat) (left : Int) (s t : State) : Prop where
  held : left ≠ 0 → ∀ n ∈ legs m, t.cs n = s.cs n
  tripped : left = 0 → ∀ n ∈ legs m, s.cs n = csTripped → t.cs n = csOpen ∨ t.cs n = csClosed
  latched : left = 0 → ∀ n ∈ legs m, s.cs n = csLatched → t.cs n = csLatched
  tlatch : bit left tThermal = false → bit left tSensor = false → t.o (R.tlatch m) = 0
  frame : Within [(R.tripCauses m, left)] ((· = R.tlatch m) :: modRegs m) s t

/-- The causes that go, and the thermal latch with its two. -/
def causesGo (m : Nat) (left : Int) : Script :=
  .seq (put (R.tripCauses m) left) (if bit left tThermal || bit left tSensor then .skip else put (R.tlatch m) 0)

/-- What the legs do: they return with the last cause. -/
def legsGo (m : Nat) (left : Int) : Script := if left != 0 then .skip else returnLegs m

theorem run_releaseCauses (m : Nat) (bits : List Nat) (s : State) : (releaseCauses m bits).run s =
    (legsGo m (s.causesLeft m bits)).run ((causesGo m (s.causesLeft m bits)).run s) := rfl

section
variable (m : Pm) (left : Int) (s : State)

theorem causesGo_touches : Touches (· ∈ [R.tripCauses m, R.tlatch m]) (causesGo m left) s :=
  .seq (.put (by simp)) (.ite .skip (.put (by simp)))

theorem causesGo_cs (n : Nat) : ((causesGo m left).run s).cs n = s.cs n := by
  refine (causesGo_touches m left s).cs ?_
  simp only [R.chState, R.tripCauses, R.tlatch, List.mem_cons, List.not_mem_nil, or_false, Key]
  omega

theorem causesGo_tripCauses : ((causesGo m left).run s).o (R.tripCauses m) = norm (R.tripCauses m) left := by
  have hself := put_o_self (R.tripCauses m) left s (notConst _ (by simp only [R.tripCauses]; omega))
  simp only [causesGo, run_seq]
  split
  · exact hself
  · exact (put_o_other _ _ _ _ (by simp only [R.tripCauses, R.tlatch, Key]; omega)).trans hself

theorem causesGo_tlatch (h0 : bit left tThermal = false) (h1 : bit left tSensor = false) :
    ((causesGo m left).run s).o (R.tlatch m) = 0 := by
  simp only [causesGo, run_seq, h0, h1, Bool.or_false, Bool.false_eq_true, if_false]
  exact put_o_same _ _ _ (notConst _ (by simp only [R.tlatch]; omega)) (norm_zero _)

end

theorem tripCauses_page (m : Pm) : 0x340000 ≤ R.tripCauses m ∧ R.tripCauses m < 0x350000 := by
  simp only [R.tripCauses, Key]; omega

theorem tlatch_page (m : Pm) : 0x340000 ≤ R.tlatch m ∧ R.tlatch m < 0x350000 := by
  simp only [R.tlatch, Key]; omega

theorem legsGo_touches (m : Nat) (left : Int) (s : State) : Touches (ofLegs m) (legsGo m left) s :=
  .ite .skip (returnLegs_touches m s)

theorem releaseCauses_touches (m : Pm) (bits : List Nat) (s : State) :
    Touches (fun k => k ∈ [R.tripCauses m, R.tlatch m] ∨ ofLegs m k) (releaseCauses m bits) s := by
  have h : Touches (fun k => k ∈ [R.tripCauses m, R.tlatch m] ∨ ofLegs m k)
      (.seq (causesGo m (s.causesLeft m bits)) (legsGo m (s.causesLeft m bits))) s :=
    .seq ((causesGo_touches m _ s).mono fun _ => .inl) ((legsGo_touches m _ _).mono fun _ => .inr)
  exact ⟨h.others, h.active, h.shadow⟩

theorem releaseCauses_within (m : Pm) (bits : List Nat) (s : State) :
    Within [(R.tripCauses m, s.causesLeft m bits)] ((· = R.tlatch m) :: modRegs m) s
      (flush.run ((releaseCauses m bits).run s.fresh)) := by
  refine ((releaseCauses_touches m bits s.fresh).mono ?_).within ?_ ?_
  · rintro k (hk | ⟨n, hn, hk⟩)
    · simp only [List.mem_cons, List.not_mem_nil, or_false] at hk
      simpa using hk.imp_right .inl
    · simpa using .inr (.inr (mem_modRegs_of_mem_legRegs hn hk))
  · simp only [List.forall_mem_singleton]
    rw [run_releaseCauses, (legsGo_touches m _ _).others _ (not_ofLegs_of_page (tripCauses_page m))]
    exact causesGo_tripCauses m _ s.fresh
  · simpa using not_counter_of_page (tripCauses_page m)

theorem releaseCauses_released (m : Pm) (bits : List Nat) (s : State) :
    Released m (s.causesLeft m bits) s (flush.run ((releaseCauses m bits).run s.fresh)) := by
  have hcs (n : Nat) : ((causesGo m (s.causesLeft m bits)).run s.fresh).cs n = s.cs n := causesGo_cs m _ s.fresh n
  have hlegs {n : Nat} (hn : n ∈ legs m) : (flush.run ((releaseCauses m bits).run s.fresh)).cs n =
      ((legsGo m (s.causesLeft m bits)).run ((causesGo m (s.causesLeft m bits)).run s.fresh)).cs n :=
    flush_cs _ (lt_of_mem_legs hn)
  refine ⟨fun hne n hn => ?_, fun h0 n hn ht => ?_, fun h0 n hn hl => ?_, fun hth hse => ?_, releaseCauses_within m bits s⟩
  · rw [hlegs hn, legsGo, if_pos (by simpa using hne)]
    exact hcs n
  · rw [hlegs hn, legsGo, if_neg (by simpa using h0)]
    exact returnLegs_cs_of_tripped hn ((hcs n).trans ht)
  · rw [hlegs hn, legsGo, if_neg (by simpa using h0)]
    exact returnLegs_cs_of_latched hn ((hcs n).trans hl)
  · rw [flush_o_of_page _ (tlatch_page m), run_releaseCauses,
      (legsGo_touches m _ _).others _ (not_ofLegs_of_page (tlatch_page m))]
    exact causesGo_tlatch m _ s.fresh hth hse

theorem linkOvRelease_released {s : State} {m : Pm} (hbit : bit (s.o (R.tripCauses m)) tLinkOv = true)
    (hlow : 5000 ≤ s.o (R.ovLow m)) : Does (.linkOvRelease m) s (Released m (s.causesLeft m [tLinkOv]) s) :=
  does_of (c := fun s => bit (s.o (R.tripCauses m)) tLinkOv && decide (5000 ≤ s.o (R.ovLow m))) rfl (by simp [hbit, hlow])
    (releaseCauses_released m [tLinkOv] s)

@[simp] theorem fresh_usSince (s : State) (t : Int) : s.fresh.usSince t = s.usSince t := rfl

theorem thermalRelease_released {s : State} {m : Pm} (hlatch : s.o (R.tlatch m) = 1) (hns : 0 ≤ s.o (R.tlNs m))
    (hdwell : s.a (R.tlatchDwellUs m) ≤ s.usSince (s.o (R.tlNs m))) :
    Does (.thermalRelease m) s (Released m (s.causesLeft m [tThermal, tSensor]) s) :=
  does_of (c := fun s => s.o (R.tlatch m) = 1 && 0 ≤ s.o (R.tlNs m)
      && decide (s.a (R.tlatchDwellUs m) ≤ s.usSince (s.o (R.tlNs m)))) rfl
    (by simp [hlatch, hns, hdwell]) (releaseCauses_released m [tThermal, tSensor] s)

/-- After a thermal release neither thermal cause is left. -/
theorem thermal_bits_causesLeft (s : State) (m : Nat) : bit (s.causesLeft m [tThermal, tSensor]) tThermal = false ∧
    bit (s.causesLeft m [tThermal, tSensor]) tSensor = false := by
  refine ⟨?_, bit_withBit_false_same _ _⟩
  exact (bit_withBit_false_below _ (by decide)).trans (bit_withBit_false_same _ _)

/-! ## A trip (R168, R173) -/

/-- A card of no single leg (R173). -/
theorem card_touches (m : Nat) (cause retry cbc after : Int) (s : State) :
    Touches (fun k => ∃ p ∈ cardRegs m, p k) (card m cause 255 retry cbc after) s := by
  refine .dyn (.cons (.put ?_) (.cons (.put ?_) (.cons (.put ?_) (.cons (.put ?_) (.cons (.put ?_) (.cons .skip .nil))))))
  · exact ⟨_, List.mem_cons_self, _, Nat.mod_lt _ (by decide), rfl⟩
  · simp [cardRegs]
  · simp [cardRegs]
  · simp [cardRegs]
  · simp [cardRegs]

theorem card_lastCardNo (m : Pm) (cause retry cbc after : Int) (s : State) :
    ((card m cause 255 retry cbc after).run s).o (R.lastCardNo m) =
      norm (R.lastCardNo m) (s.o (R.lastCardNo m) + 1) := by
  have hconst : isConst (R.lastCardNo m) = false := notConst _ (by simp only [R.lastCardNo]; omega)
  have hcount : R.lastCardNo m ≠ R.modTripCount m := by simp only [R.lastCardNo, R.modTripCount, Key]; omega
  have hdirty : R.lastCardNo m ≠ R.cardDirty m := by simp only [R.lastCardNo, R.cardDirty, Key]; omega
  simp only [card, run_dyn, run_all_cons, run_all_nil, if_true, run_skip]
  rw [put_o_other _ _ _ _ hdirty, put_o_other _ _ _ _ hcount, put_o_self _ _ _ hconst]

theorem connTo_lt {s : State} {m k : Nat} (hm : s.o (R.modConn m) ≤ 24) (hk : s.connTo m = some k) : k < 24 := by
  unfold State.connTo at hk
  split at hk
  · cases hk
  · simp only [Option.some.injEq] at hk
    omega

/-- What follows the loss of a module's capability: its dwell ends, and beside that its state and a grant may show it
(R90, R92). -/
theorem capabilityFell_eq {s : State} {m : Nat} (hm : s.o (R.modConn m) ≤ 24) : ∃ rest : Script,
    (capabilityFell m).run s = rest.run ((put (R.dwellEnd m) (-1)).run s) ∧
    ∀ u, Touches (fun k => k ∈ moduleShown m ∨ fam R.outGrantI 24 k) rest u := by
  refine ⟨_, rfl, fun u => .cons (.put (.inl (by simp [moduleShown]))) (.cons ((refreshMod_touches m _).mono fun _ => .inl)
    (.cons ?_ .nil))⟩
  split
  · rename_i k hk
    exact .dyn (.put (.inr ⟨k, connTo_lt hm hk, rfl⟩))
  · exact .skip

theorem capabilityFell_touches {s : State} {m : Nat} (hm : s.o (R.modConn m) ≤ 24) :
    Touches (fun k => k = R.dwellEnd m ∨ k ∈ moduleShown m ∨ fam R.outGrantI 24 k) (capabilityFell m) s := by
  obtain ⟨rest, hrun, hrest⟩ := capabilityFell_eq hm
  have h : Touches (fun k => k = R.dwellEnd m ∨ k ∈ moduleShown m ∨ fam R.outGrantI 24 k)
      (.seq (put (R.dwellEnd m) (-1)) rest) s := .seq (.put (.inl rfl)) ((hrest _).mono fun _ => .inr)
  exact ⟨fun k hk => hrun ▸ h.others k hk, hrun ▸ h.active, hrun ▸ h.shadow⟩

theorem capabilityFell_dwellEnd {s : State} {m : Pm} (hm : s.o (R.modConn m) ≤ 24) :
    ((capabilityFell m).run s).o (R.dwellEnd m) = norm (R.dwellEnd m) (-1) := by
  obtain ⟨rest, hrun, hrest⟩ := capabilityFell_eq hm
  rw [hrun, (hrest _).others]
  · exact put_o_self _ _ _ (notConst _ (by simp only [R.dwellEnd]; omega))
  · rintro (h | ⟨i, hi, h⟩)
    · exact not_mem_moduleShown_of_page (by simp only [R.dwellEnd]; omega) h
    · simp only [R.dwellEnd, R.outGrantI, Key] at h
      omega

/-- The legs that a trip stops: those available when its cause takes effect. -/
def tripLegs (m : Nat) (s : State) : Script := each ((legs m).filter s.avail) fun j => setCh j csTripped

theorem tripLegs_touches (m : Nat) (s u : State) : Touches (ofLegs m) (tripLegs m s) u :=
  .each fun j hj t => (setCh_touches j csTripped t).mono fun _ hk => ⟨j, (List.mem_filter.mp hj).1, hk⟩

theorem tripLegs_cs {m : Pm} {n : Nat} (hn : n ∈ legs m) {s u : State} (hu : u.cs n = s.cs n) :
    ((tripLegs m s).run u).cs n = if s.avail n then csTripped else s.cs n := by
  refine (run_each_view (fun t => t.cs n) (f := fun j => setCh j csTripped)
    (fun t => setCh_cs (lt_of_mem_legs hn) (by decide) (by decide) t)
    (fun j hj hne t => (setCh_touches j csTripped t).cs_of_leg hn (List.mem_filter.mp hj).1 hne) u).trans ?_
  simp only [List.mem_filter, hn, true_and, hu]

/-- What a trip does once its card is captured. -/
def tripStops (m : Nat) (s : State) : Script := .seq (tripLegs m s) (capabilityFell m)

/-- The registers of a module that a trip stops. -/
def stopRegs (m : Nat) (k : Key) : Prop := k = R.dwellEnd m ∨ ofLegs m k ∨ fam R.outGrantI 24 k

theorem not_stopRegs_of_page {m : Pm} {k : Nat} (h : 0x340000 ≤ k ∧ k < 0x350000) : ¬ stopRegs m k := by
  rintro (hk | hk | ⟨i, hi, hk⟩)
  · simp only [R.dwellEnd, Key] at hk; omega
  · exact not_ofLegs_of_page h hk
  · simp only [R.outGrantI, Key] at hk; omega

section
variable {m : Pm} (s : State) {u : State} (hm : u.o (R.modConn m) ≤ 24)
include hm

theorem modConn_tripLegs : ((tripLegs m s).run u).o (R.modConn m) ≤ 24 := by
  rw [(tripLegs_touches m s u).others _ fun ⟨_, hn, hk⟩ => modConn_not_mem_legRegs m.isLt (lt_of_mem_legs hn) hk]
  exact hm

theorem tripStops_touches : Touches (stopRegs m) (tripStops m s) u := by
  refine .seq ((tripLegs_touches m s u).mono fun _ h => .inr (.inl h)) ?_
  refine (capabilityFell_touches (modConn_tripLegs s hm)).mono ?_
  rintro k (h | h | h)
  · exact .inl h
  · exact .inr (.inl ⟨4 * m, List.mem_cons_self, mem_legRegs_of_mem_moduleShown List.mem_cons_self h⟩)
  · exact .inr (.inr h)

theorem tripStops_cs {n : Nat} (hn : n ∈ legs m) (hu : u.cs n = s.cs n) :
    ((tripStops m s).run u).cs n = if s.avail n then csTripped else s.cs n := by
  refine ((capabilityFell_touches (modConn_tripLegs s hm)).cs ?_).trans (tripLegs_cs hn hu)
  have hlt := lt_of_mem_legs hn
  rintro (h | h | ⟨i, hi, h⟩)
  · simp only [R.chState, R.dwellEnd, Key] at h; omega
  · exact chState_not_mem_moduleShown n m h
  · simp only [R.chState, R.outGrantI, Key] at h; omega

end

theorem lastCardNo_page (m : Pm) : 0x340000 ≤ R.lastCardNo m ∧ R.lastCardNo m < 0x350000 := by
  simp only [R.lastCardNo, Key]; omega

theorem tripCauses_not_cardRegs (m : Pm) : ¬ ∃ p ∈ cardRegs m, p (R.tripCauses m) := by
  intro h
  have := eq_of_cardRegs h
  simp only [R.tripCauses, Key] at this
  omega

theorem modConn_not_cardRegs (m : Pm) : ¬ ∃ p ∈ cardRegs m, p (R.modConn m) := by
  intro h
  have := eq_of_cardRegs h
  simp only [R.modConn, Key] at this
  omega

/-- The cause of a trip and its card. -/
def causeAndCard (m b : Nat) (s : State) : Script :=
  .seq (put (R.tripCauses m) (withBit (s.o (R.tripCauses m)) b true)) (card m (3 + b) 255 0 0 255)

theorem causeAndCard_touches (m b : Nat) (s u : State) :
    Touches (fun k => k = R.tripCauses m ∨ ∃ p ∈ cardRegs m, p k) (causeAndCard m b s) u :=
  .seq (.put (.inl rfl)) ((card_touches m _ 0 0 255 _).mono fun _ => .inr)

/-- A trip of a new cause beside the thermal two: the cause and its card, then what stops. -/
theorem run_tripCause {s : State} {m b : Nat} (hb : 2 ≤ b) (h : bit (s.o (R.tripCauses m)) b = false) :
    (tripCause m b).run s = (Script.seq (causeAndCard m b s) (tripStops m s)).run s := by
  have hthermal : ¬ b ≤ 1 := by omega
  simp only [tripCause, run_dyn, run_onlyIf, h, hthermal, Bool.not_false, if_true, if_false, run_all_cons, run_all_nil, run_skip,
    causeAndCard, tripStops, tripLegs, run_seq]

section
variable {m : Pm} {b : Nat} (hb : 2 ≤ b) {s : State} (hm : s.o (R.modConn m) ≤ 24) (hnew : bit (s.o (R.tripCauses m)) b = false)
include hm

theorem modConn_causeAndCard : ((causeAndCard m b s).run s).o (R.modConn m) ≤ 24 := by
  rw [(causeAndCard_touches m b s s).others _]
  · exact hm
  · rintro (h | h)
    · simp only [R.modConn, R.tripCauses, Key] at h; omega
    · exact modConn_not_cardRegs m h

include hb hnew

theorem tripCause_touches :
    Touches (fun k => (k = R.tripCauses m ∨ ∃ p ∈ cardRegs m, p k) ∨ stopRegs m k) (tripCause m b) s := by
  have h : Touches (fun k => (k = R.tripCauses m ∨ ∃ p ∈ cardRegs m, p k) ∨ stopRegs m k)
      (.seq (causeAndCard m b s) (tripStops m s)) s :=
    .seq ((causeAndCard_touches m b s s).mono fun _ => .inl)
      ((tripStops_touches s (modConn_causeAndCard hm)).mono fun _ => .inr)
  have hrun := run_tripCause hb hnew
  exact ⟨hrun ▸ h.others, hrun ▸ h.active, hrun ▸ h.shadow⟩

theorem tripCause_cs {n : Nat} (hn : n ∈ legs m) :
    ((tripCause m b).run s).cs n = if s.avail n then csTripped else s.cs n := by
  rw [run_tripCause hb hnew]
  refine tripStops_cs s (modConn_causeAndCard hm) hn ((causeAndCard_touches m b s s).cs ?_)
  have hlt := lt_of_mem_legs hn
  rintro (h | h)
  · simp only [R.chState, R.tripCauses, Key] at h; omega
  · exact not_cardRegs_of_lt (by simp only [R.chState]; omega) h

theorem tripCause_lastCardNo : ((tripCause m b).run s).o (R.lastCardNo m) = norm (R.lastCardNo m) (s.o (R.lastCardNo m) + 1) := by
  have hput : R.lastCardNo m ≠ R.tripCauses m := by simp only [R.lastCardNo, R.tripCauses, Key]; omega
  simp only [run_tripCause hb hnew, run_seq]
  rw [(tripStops_touches s (modConn_causeAndCard hm)).others _ (not_stopRegs_of_page (lastCardNo_page m))]
  simp only [causeAndCard, run_seq, card_lastCardNo, put_o_other _ _ _ _ hput]

theorem tripCause_tripCauses : ((tripCause m b).run s).o (R.tripCauses m) =
    norm (R.tripCauses m) (withBit (s.o (R.tripCauses m)) b true) := by
  simp only [run_tripCause hb hnew, run_seq]
  rw [(tripStops_touches s (modConn_causeAndCard hm)).others _ (not_stopRegs_of_page (tripCauses_page m))]
  simp only [causeAndCard, run_seq]
  rw [(card_touches m _ 0 0 255 _).others _ (tripCauses_not_cardRegs m)]
  exact put_o_self _ _ _ (notConst _ (by simp only [R.tripCauses]; omega))

theorem tripCause_dwellEnd : ((tripCause m b).run s).o (R.dwellEnd m) = norm (R.dwellEnd m) (-1) := by
  rw [run_tripCause hb hnew]
  exact capabilityFell_dwellEnd (modConn_tripLegs s (modConn_causeAndCard hm))

theorem tripCause_frame : Within [(R.tripCauses m, withBit (s.o (R.tripCauses m)) b true), (R.dwellEnd m, -1)]
    ((· = R.tlatch m) :: fam R.outGrantI 24 :: (modRegs m ++ cardRegs m)) s (flush.run ((tripCause m b).run s.fresh)) := by
  refine ((tripCause_touches (s := s.fresh) hb hm hnew).mono ?_).within ?_ ?_
  · rintro k ((h | ⟨p, hp, hk⟩) | h | ⟨n, hn, hk⟩ | h)
    · exact .inl (by simp [h])
    · exact .inr ⟨p, by simp [hp], hk⟩
    · exact .inl (by simp [h])
    · obtain ⟨p, hp, hk⟩ := mem_modRegs_of_mem_legRegs hn hk
      exact .inr ⟨p, by simp [hp], hk⟩
    · exact .inr ⟨_, by simp, h⟩
  · simp only [List.forall_mem_cons]
    exact ⟨tripCause_tripCauses (s := s.fresh) hb hm hnew, tripCause_dwellEnd (s := s.fresh) hb hm hnew, by simp⟩
  · simp only [List.forall_mem_cons]
    have hdwell : isQCount (R.dwellEnd m) = false ∧ R.dwellEnd m ≠ R.seqNo :=
      ⟨isQCount_other _ (.inr (by simp only [R.dwellEnd]; omega)), by simp only [R.dwellEnd, R.seqNo, Key]; omega⟩
    exact ⟨not_counter_of_page (tripCauses_page m), hdwell, by simp⟩

end

theorem moduleTripsAndReleases : Sys2Proof.Parts.ModuleTripsAndReleases := by
  intro s m
  refine ⟨fun hm hcnt hnew => ?_, fun hbit hlow => ?_, fun hlatch hns hdwell => ?_⟩
  · refine does_of (c := fun s => decide (2 ≤ s.o (R.ovCnt m))) rfl (by simp [hcnt]) ⟨fun n hn => ?_, ?_, ?_⟩
    · rw [flush_cs _ (lt_of_mem_legs hn)]
      exact tripCause_cs (s := s.fresh) (by decide) hm hnew hn
    · rw [flush_o_of_page _ (lastCardNo_page m)]
      exact tripCause_lastCardNo (s := s.fresh) (by decide) hm hnew
    · exact tripCause_frame (by decide) hm hnew
  · obtain ⟨t, ht, h⟩ := linkOvRelease_released hbit hlow
    exact ⟨t, ht, h.held, h.tripped, h.latched, h.frame⟩
  · obtain ⟨t, ht, h⟩ := thermalRelease_released hlatch hns hdwell
    obtain ⟨hthermal, hsensor⟩ := thermal_bits_causesLeft s m
    exact ⟨t, ht, h.tlatch hthermal hsensor, h.held, h.tripped, h.latched, h.frame⟩

/-! ## LATCH_CLEAR (R170) -/

/-- At its stamp a write to LATCH_CLEAR is the command of its own (R43). -/
theorem applied_latchClear (src : Src) (m : Pm) (u : State) :
    applied src (R.latchClear m) 1 u = (applyLatchClear m).run u := by
  have hpage : R.latchClear m / 256 = 0x3400 + m := by simp only [R.latchClear, Key]; omega
  have hsub : R.latchClear m % 256 = 0x0D := by simp only [R.latchClear, Key]; omega
  have hlt : 0x3400 + m.val < 0x3400 + 48 := by omega
  have hother {k : Nat} (hk : k / 256 < 0x3400) : R.latchClear m ≠ k := by
    intro h
    rw [← h, hpage] at hk
    omega
  refine applied_of (P := (· = (applyLatchClear m).run u)) ?_ rfl
  simp [commandWrite, hpage, hsub, hlt, hother (k := R.storeReq) (by decide), hother (k := R.restoreDefaults) (by decide),
    hother (k := R.domainOff) (by decide), hother (k := R.domainOn) (by decide), hother (k := R.resetReq) (by decide)]

/-- What LATCH_CLEAR does to a latched leg. -/
def clearLeg (n : Nat) : Script := all [setCh n csOpen, put (R.retryCount n) 0, put (R.cbcCnt n) 0]

/-- The legs latched in `u`, opened one after another. -/
def clearLegs (m : Nat) (u : State) : Script := each ((legs m).filter fun n => u.cs n = csLatched) clearLeg

/-- What LATCH_CLEAR shows once the legs are open. -/
def clearShown (m : Nat) : Script := all [put (R.latchMask m) 0, card m 7 255 0 0 255, refreshMod m]

theorem run_applyLatchClear {m : Nat} {u : State} (h : u.o (R.tripCauses m) = 0) : (applyLatchClear m).run u =
    (clearShown m).run ((clearLegs m u).run u) := by
  simp only [applyLatchClear, run_dyn, h, decide_true, run_onlyIf, if_true, run_all_cons, clearShown]
  rfl

theorem run_applyLatchClear_of_cause {m : Nat} {u : State} (h : u.o (R.tripCauses m) ≠ 0) : (applyLatchClear m).run u = u := by
  simp [applyLatchClear, h]

theorem clearLeg_touches (n : Nat) (s : State) : Touches (fun k => k = R.cbcCnt n ∨ k ∈ legRegs n) (clearLeg n) s :=
  .cons ((setCh_touches n _ _).mono fun _ => .inr) (.cons (.put (.inr (by simp [legRegs, besideState]))) (.cons (.put (.inl rfl)) .nil))

/-- A leg's state and its counts. -/
def State.legView (t : State) (n : Nat) : Int × Int × Int := (t.cs n, t.o (R.retryCount n), t.o (R.cbcCnt n))

theorem clearLeg_legView {n : Nat} (hn : n < 192) (s : State) : ((clearLeg n).run s).legView n = (csOpen, 0, 0) := by
  have hr : R.cbcCnt n ≠ R.retryCount n := by simp only [R.cbcCnt, R.retryCount, Key]; omega
  have hc : R.chState n ≠ R.retryCount n ∧ R.chState n ≠ R.cbcCnt n := by
    simp only [R.chState, R.cbcCnt, R.retryCount, Key]; omega
  have hconst : isConst (R.retryCount n) = false ∧ isConst (R.cbcCnt n) = false :=
    ⟨notConst _ (by simp only [R.retryCount]; omega), notConst _ (by simp only [R.cbcCnt]; omega)⟩
  simp only [State.legView, clearLeg, run_all_cons, run_all_nil, Prod.mk.injEq]
  refine ⟨?_, ?_, ?_⟩
  · exact ((put_o_other _ _ _ _ hc.2).trans (put_o_other _ _ _ _ hc.1)).trans (setCh_cs hn (by decide) (by decide) s)
  · exact (put_o_other _ _ _ _ hr.symm).trans (put_o_same _ _ _ hconst.1 (norm_zero _))
  · exact put_o_same _ _ _ hconst.2 (norm_zero _)

theorem Touches.legView {p : Key → Prop} {sc : Script} {s : State} (h : Touches p sc s) {n : Nat}
    (hn : ∀ k ∈ [R.chState n, R.retryCount n, R.cbcCnt n], ¬ p k) : (sc.run s).legView n = s.legView n := by
  simp only [List.forall_mem_cons] at hn
  obtain ⟨hstate, hretry, hcbc, -⟩ := hn
  simp only [State.legView, h.cs hstate, h.others _ hretry, h.others _ hcbc]

theorem clearLeg_legView_of_ne {n j : Nat} (hn : n < 192) (hj : j < 192) (hne : n ≠ j) (s : State) :
    ((clearLeg j).run s).legView n = s.legView n := by
  refine (clearLeg_touches j s).legView fun k hk => ?_
  have hpage : k / 256 = 0x3100 + n ∧ (k = R.cbcCnt j → n = j) := by
    simp only [R.chState, R.retryCount, R.cbcCnt, List.mem_cons, List.not_mem_nil, or_false, Key] at hk ⊢
    omega
  rintro (h | h)
  · exact hne (hpage.2 h)
  · exact not_mem_legRegs_of_channel hn hj hpage.1 hne h

theorem clearShown_touches (m : Nat) (s : State) :
    Touches (fun k => k = R.latchMask m ∨ (∃ p ∈ cardRegs m, p k) ∨ k ∈ moduleShown m) (clearShown m) s :=
  .cons (.put (.inl rfl)) (.cons ((card_touches m 7 0 0 255 _).mono fun _ h => .inr (.inl h))
    (.cons ((refreshMod_touches m _).mono fun _ h => .inr (.inr h)) .nil))

theorem clearShown_legView {n : Nat} (hn : n < 192) (m : Pm) (s : State) :
    ((clearShown m).run s).legView n = s.legView n := by
  refine (clearShown_touches m s).legView fun k hk => ?_
  have hpage : 0x310000 ≤ k ∧ k < 0x340000 := by
    simp only [R.chState, R.retryCount, R.cbcCnt, List.mem_cons, List.not_mem_nil, or_false, Key] at hk ⊢
    omega
  rintro (h | h | h)
  · simp only [R.latchMask, Key] at h hpage; omega
  · exact not_cardRegs_of_lt hpage.2 h
  · exact not_mem_moduleShown_of_page hpage.1 h

theorem clearShown_latchMask (m : Pm) (s : State) : ((clearShown m).run s).o (R.latchMask m) = 0 := by
  have hconst : isConst (R.latchMask m) = false := notConst _ (by simp only [R.latchMask]; omega)
  have hcard : ¬ ∃ p ∈ cardRegs m, p (R.latchMask m) := fun h => by
    have := eq_of_cardRegs h
    simp only [R.latchMask, Key] at this
    omega
  have hshown : R.latchMask m ∉ moduleShown m := not_mem_moduleShown_of_page (by simp only [R.latchMask]; omega)
  simp only [clearShown, run_all_cons, run_all_nil]
  rw [(refreshMod_touches m _).others _ hshown, (card_touches m 7 0 0 255 _).others _ hcard]
  exact put_o_same _ _ _ hconst (norm_zero _)

theorem clearShown_lastCardNo (m : Pm) (s : State) :
    ((clearShown m).run s).o (R.lastCardNo m) = norm (R.lastCardNo m) (s.o (R.lastCardNo m) + 1) := by
  have hmask : R.lastCardNo m ≠ R.latchMask m := by simp only [R.lastCardNo, R.latchMask, Key]; omega
  have hshown : R.lastCardNo m ∉ moduleShown m := not_mem_moduleShown_of_page (by simp only [R.lastCardNo]; omega)
  simp only [clearShown, run_all_cons, run_all_nil]
  rw [(refreshMod_touches m _).others _ hshown, card_lastCardNo, put_o_other _ _ _ _ hmask]

theorem clearLegs_touches (m : Nat) (u s : State) :
    Touches (fun k => ∃ n ∈ legs m, k = R.cbcCnt n ∨ k ∈ legRegs n) (clearLegs m u) s :=
  .each fun j hj t => (clearLeg_touches j t).mono fun _ hk => ⟨j, (List.mem_filter.mp hj).1, hk⟩

theorem clearLegs_legView {m : Pm} {n : Nat} (hn : n ∈ legs m) (u : State) :
    ((clearLegs m u).run u).legView n = if u.cs n = csLatched then (csOpen, 0, 0) else u.legView n := by
  refine (run_each_view (fun t => t.legView n) (clearLeg_legView (lt_of_mem_legs hn))
    (fun j hj => clearLeg_legView_of_ne (lt_of_mem_legs hn) (lt_of_mem_legs (List.mem_filter.mp hj).1)) u).trans ?_
  simp only [List.mem_filter, hn, true_and, decide_eq_true_eq]

theorem clearLegs_lastCardNo (m : Pm) (u : State) : ((clearLegs m u).run u).o (R.lastCardNo m) = u.o (R.lastCardNo m) := by
  refine (clearLegs_touches m u u).others _ ?_
  rintro ⟨n, hn, h | h⟩
  · have := lt_of_mem_legs hn
    simp only [R.lastCardNo, R.cbcCnt, Key] at h
    omega
  · exact not_mem_legRegs_of_page (lt_of_mem_legs hn) (lastCardNo_page m) h

theorem latchClearing : Sys2Proof.Parts.LatchClearing := by
  intro u src m
  simp only [applied_latchClear]
  refine ⟨run_applyLatchClear_of_cause, fun hnone => ?_⟩
  rw [run_applyLatchClear hnone]
  have hview {n : Nat} (hn : n ∈ legs m) : ((clearShown m).run ((clearLegs m u).run u)).legView n =
      if u.cs n = csLatched then (csOpen, 0, 0) else u.legView n :=
    (clearShown_legView (lt_of_mem_legs hn) m _).trans (clearLegs_legView hn u)
  refine ⟨fun n hn hl => ?_, fun n hn hl => ?_, clearShown_latchMask m _, ?_, ?_, ?_⟩
  · simpa [State.legView, hl] using hview hn
  · simpa [State.legView, hl] using hview hn
  · rw [clearShown_lastCardNo, clearLegs_lastCardNo]
  · exact (clearShown_touches m _).active.trans (clearLegs_touches m u u).active
  · exact (clearShown_touches m _).shadow.trans (clearLegs_touches m u u).shadow

/-- Settles O27: by what each of a module's four legs and its own registers show after a trip, a release, and LATCH_CLEAR. -/
theorem moduleProtection : Obligations.ModuleProtection := ⟨moduleTripsAndReleases, latchClearing⟩

end Sys2Proof.Machine
